-- ==== Sys2Proof/Word.lean ====
section
/-! DEFINITION. Word.lean: the widths of the block (10_state.md R21, R35 to R39; 30_encoding.md R81). -/

namespace Sys2Proof

/-- One register of the bank, and one stored counter of the CRTC: 8 bits, unsigned (R21, R35). -/
abbrev Byte := BitVec 8

/-- One command word: 16 bits (30_encoding.md R81). -/
abbrev CmdWord := BitVec 16

/-- A valid index of the register bank, 0 to 13 (10_state.md R20). -/
abbrev RegIndex := Fin 14

end Sys2Proof
end

