-- ==== Sys2Proof/Syntax.lean ====
section
/-! DEFINITION. Syntax.lean: the eleven operations of 30_encoding.md R80 and R82, one constructor per row of
spec/opcode_table.json. -/

namespace Sys2Proof

/-- An operation with its operands. SETREG takes its operands as `band3` types them, two integers
(30_encoding.md R80, R83; 41_crtc.md R140); `Instr.wf` says which of them a command word can carry. -/
inductive Instr where
  /-- TICK (41_crtc.md R120). -/
  | tick
  /-- SETREG (41_crtc.md R140). -/
  | setreg (index value : Int)
  /-- RESET (41_crtc.md R144). -/
  | reset
  /-- QHSYNC (41_crtc.md R141). -/
  | qhsync
  /-- QVSYNC (41_crtc.md R142). -/
  | qvsync
  /-- QBORDER (41_crtc.md R143). -/
  | qborder
  /-- QINT (40_gate_array.md R105). -/
  | qint
  /-- RUNVS (42_host_procedures.md R160). -/
  | runvs
  /-- GA_ADV (40_gate_array.md R100). -/
  | gaAdv
  /-- GA_HSF (40_gate_array.md R101). -/
  | gaHsf
  /-- GA_VSS (40_gate_array.md R104). -/
  | gaVss
  deriving DecidableEq, Repr

end Sys2Proof
end

