-- ==== Sys2Proof/WellFormed.lean ====
section
/-! DEFINITION. WellFormed.lean: the operations that a command word can carry (30_encoding.md R81, R83). -/

namespace Sys2Proof

/-- The field `idx` has four bits: the indices 0 to 15 are expressible, 14 and 15 among them, which
SETREG then fails on (30_encoding.md R83). -/
def indexFits (index : Int) : Bool := decide (0 ≤ index) && decide (index ≤ 15)

/-- The field `val` has eight bits; a value outside 0 to 255 is unspeakable (R83, decision D24). -/
def valueFits (value : Int) : Bool := decide (0 ≤ value) && decide (value ≤ 255)

/-- The operation has a command word. -/
def Instr.wf : Instr → Bool
  | .tick => true
  | .setreg index value => indexFits index && valueFits value
  | .reset => true
  | .qhsync => true
  | .qvsync => true
  | .qborder => true
  | .qint => true
  | .runvs => true
  | .gaAdv => true
  | .gaHsf => true
  | .gaVss => true

end Sys2Proof
end

