-- ==== Sys2Proof/Decode.lean ====
section
/-! DEFINITION. Decode.lean: the command word of 30_encoding.md R81 to R87: a total decoder that rejects by
name, the encoder, and decoding by the opcode table's bit numbers. -/

namespace Sys2Proof

/-- Why a word is reserved. -/
inductive Reserved where
  /-- `op` is 0xB to 0xF (R84). -/
  | opcode
  /-- `op` is 0x0 or 0x2 to 0xA, and `idx` or `val` is not 0 (R85). -/
  | unusedField
  deriving DecidableEq, Repr

/-- What a word decodes to: exactly one of an operation with its operands, or "reserved" (R87). -/
inductive Decoded where
  | instr (i : Instr)
  | reserved (why : Reserved)
  deriving DecidableEq, Repr

/-- Field `op`, bits 15:12 (R81). -/
def opField (w : CmdWord) : BitVec 4 := w.extractLsb' 12 4

/-- Field `idx`, bits 11:8 (R81). -/
def idxField (w : CmdWord) : BitVec 4 := w.extractLsb' 8 4

/-- Field `val`, bits 7:0 (R81). -/
def valField (w : CmdWord) : Byte := w.extractLsb' 0 8

/-- An operation without operands: both unused fields must be 0 (R85). -/
def decodeBare (w : CmdWord) (i : Instr) : Decoded :=
  if idxField w = 0#4 ∧ valField w = 0#8 then .instr i else .reserved .unusedField

/-- The decoder (R82, R83, R87). The operands of SETREG are zero-extended. -/
def decode (w : CmdWord) : Decoded :=
  match (opField w).toNat with
  | 0x0 => decodeBare w .tick
  | 0x1 => .instr (.setreg (idxField w).toNat (valField w).toNat)
  | 0x2 => decodeBare w .reset
  | 0x3 => decodeBare w .qhsync
  | 0x4 => decodeBare w .qvsync
  | 0x5 => decodeBare w .qborder
  | 0x6 => decodeBare w .qint
  | 0x7 => decodeBare w .runvs
  | 0x8 => decodeBare w .gaAdv
  | 0x9 => decodeBare w .gaHsf
  | 0xA => decodeBare w .gaVss
  | _ => .reserved .opcode

/-- The operation code of R82. -/
def Instr.opcode : Instr → BitVec 4
  | .tick => 0x0#4
  | .setreg _ _ => 0x1#4
  | .reset => 0x2#4
  | .qhsync => 0x3#4
  | .qvsync => 0x4#4
  | .qborder => 0x5#4
  | .qint => 0x6#4
  | .runvs => 0x7#4
  | .gaAdv => 0x8#4
  | .gaHsf => 0x9#4
  | .gaVss => 0xA#4

/-- Put the three fields of R81 together. -/
def assembleFields (op idx : BitVec 4) (val : Byte) : CmdWord := (op ++ idx) ++ val

/-- The encoder (R81 to R83). It is meant for operations with `Instr.wf`; of an operand that does not
fit its field only the low bits are kept. -/
def encode : Instr → CmdWord
  | .tick => assembleFields Instr.tick.opcode 0 0
  | .setreg index value =>
      assembleFields (Instr.setreg index value).opcode (BitVec.ofInt 4 index) (BitVec.ofInt 8 value)
  | .reset => assembleFields Instr.reset.opcode 0 0
  | .qhsync => assembleFields Instr.qhsync.opcode 0 0
  | .qvsync => assembleFields Instr.qvsync.opcode 0 0
  | .qborder => assembleFields Instr.qborder.opcode 0 0
  | .qint => assembleFields Instr.qint.opcode 0 0
  | .runvs => assembleFields Instr.runvs.opcode 0 0
  | .gaAdv => assembleFields Instr.gaAdv.opcode 0 0
  | .gaHsf => assembleFields Instr.gaHsf.opcode 0 0
  | .gaVss => assembleFields Instr.gaVss.opcode 0 0

/-- The command word whose bits, numbered as spec/opcode_table.json numbers them, are `w` in its low
`nbits` bits and 0 above. There is one length, 16 bits (R81). Log 18. -/
def tableWord (nbits w : Nat) : CmdWord := BitVec.ofNat 16 (w % 2 ^ min nbits 16)

/-- The operation the decoder reads from that word; none for a reserved word. -/
def decodeTableWord (nbits w : Nat) : Option Instr :=
  match decode (tableWord nbits w) with
  | .instr i => some i
  | .reserved _ => none

end Sys2Proof
end

