-- ==== Sys2Proof/Config.lean ====
section
/-! DEFINITION. Config.lean: the parameters of 00_scope.md R6 that have no value fixed by the source.
The FIXED ones (64, 52, 32, 2) stand in Machine/Ops.lean, beside the operations that use them. -/

namespace Sys2Proof

/-- A sync width: an integer 1 to 255 (00_scope.md R6, decision D7), held as that integer less one so
that every value of the type is a legal width. -/
structure Width where
  pred : Fin 255
  deriving DecidableEq, Repr, Inhabited

/-- The width as the counter value it arms: 1 to 255. -/
def Width.toByte (w : Width) : Byte := BitVec.ofNat 8 (w.pred.val + 1)

/-- `GA_ORDER`: the order of the two parts of the hsync-fall event (40_gate_array.md R102). -/
inductive GaOrder where
  /-- The spec's choice: the divider part first (decision D9). -/
  | dividerFirst
  /-- The alternative the spec writes out in R102. -/
  | countdownFirst
  deriving DecidableEq, Repr

/-- `VCC_WRAP_SCOPE`: where the test "VCC exceeds R4" is made (41_crtc.md R131). -/
inductive WrapScope where
  /-- The spec's choice: only in a tick that wraps `VLC` (decision D10). -/
  | row
  /-- The alternative the spec writes out in R131: at every scanline end. -/
  | line
  deriving DecidableEq, Repr

/-- The parameters that the step function takes (00_scope.md R6; 10_state.md R50). -/
structure Params where
  /-- `HSW`, in ticks. -/
  hsw : Width
  /-- `VSW`, in scanlines. -/
  vsw : Width
  /-- `GA_ORDER`. -/
  gaOrder : GaOrder
  /-- `VCC_WRAP_SCOPE`. -/
  vccWrapScope : WrapScope
  deriving DecidableEq, Repr

/-- `HSW` of the machine that `State.reset` describes. OPEN in the spec (decision D7): no value. Log 2. -/
opaque Config.hsw : Width

/-- `VSW` of the machine that `State.reset` describes. OPEN in the spec (decision D7): no value. Log 2. -/
opaque Config.vsw : Width

/-- The parameters of the machine that `State.reset` describes: the open widths, and the spec's
choices for the two switches (logs 3 and 4). -/
def Config.params : Params :=
  { hsw := Config.hsw, vsw := Config.vsw, gaOrder := .dividerFirst, vccWrapScope := .row }

/-- `INIT_REG` of the machine that `State.reset` describes. DESIGN CHOICE, unsafe: the spec leaves the
14 bytes open (10_state.md R34, decision D5); here they are 0. `State.powerOn` takes any. Log 1. -/
def Config.initReg : Vector Byte 14 := Vector.replicate 14 0#8

end Sys2Proof
end

