-- ==== Sys2Proof/Machine/State.lean ====
section
/-! DEFINITION. Machine/State.lean: the state of the block, 10_state.md R50, beside the host's side of it, and the
state after power-on. -/

namespace Sys2Proof.Machine

/-- `VCD`, the signed countdown of 10_state.md R44: its four values and no other. -/
inductive Countdown where
  /-- -1. -/
  | disarmed
  /-- 0: exists only inside GA_HSF (R44). -/
  | zero
  /-- 1. -/
  | one
  /-- 2. -/
  | two
  deriving DecidableEq, Repr

/-- The Gate Array's state, 10_state.md R42 to R44. -/
structure GateArray where
  /-- `DIV`, 6 bits (R42). -/
  div : BitVec 6
  /-- `IRQ` (R43). -/
  irq : Bool
  /-- `VCD` (R44). -/
  vcd : Countdown
  deriving DecidableEq, Repr

/-- The CRTC's working counters, 10_state.md R35 to R40. -/
structure Crtc where
  /-- `HCC` (R35). -/
  hcc : Byte
  /-- `VLC` (R36). -/
  vlc : Byte
  /-- `VCC` (R37). -/
  vcc : Byte
  /-- `HSC` (R38). -/
  hsc : Byte
  /-- `VSC` (R39). -/
  vsc : Byte
  /-- `NOPS`, unbounded (R40). -/
  nops : Nat
  deriving DecidableEq, Repr

/-- Which unit takes the command words (30_encoding.md R86). Constant over a run. Log 9. -/
inductive Target where
  /-- The composed block: CRTC part and Gate Array part. -/
  | composed
  /-- The stand-alone Gate Array unit, whose state is `DIV`, `IRQ`, `VCD` only. -/
  | gateArrayAlone
  deriving DecidableEq, Repr

/-- The failures an operation of the block can end in, each with the value it records
(60_exceptions.md R190, R191, R193). -/
inductive Failure where
  /-- Code 3: SETREG with an index outside 0 to 13; records the index. -/
  | invalidRegisterIndex (index : Int)
  /-- Code 5: a reserved word, or a word the unit does not take; records the word. -/
  | invalidCommand (word : CmdWord)
  deriving DecidableEq, Repr

/-- What an operation hands back to the host (30_encoding.md R80; 60_exceptions.md R191). -/
inductive Answer where
  /-- The operation returns nothing. -/
  | nothing
  /-- A query's one-bit result. -/
  | bit (b : Bool)
  /-- The operation failed. -/
  | failed (f : Failure)
  deriving DecidableEq, Repr

/-- Where a procedure that is not atomic stands between two of its operations. -/
inductive Procedure where
  /-- RUNVS, at the test of its first loop (42_host_procedures.md R160). -/
  | runvsLeave
  /-- RUNVS, at the test of its second loop (R160). -/
  | runvsAwait
  /-- WAITINT, before the TICK of its loop (R162). -/
  | waitTick
  /-- WAITINT, before the QINT of its loop (R162). -/
  | waitQuery
  deriving DecidableEq, Repr

/-- One item of the host's program: a command word, or the host idiom WAITINT, which has none (R162). -/
inductive HostItem where
  | word (w : CmdWord)
  | waitInt
  deriving DecidableEq, Repr

/-- The host's side: the model's own fields, no state of the block (10_state.md R46, R50). Logs 5 to 7. -/
structure HostSide where
  /-- What the host has yet to issue, first item first. -/
  program : List HostItem
  /-- The procedure in progress, if any. -/
  busy : Option Procedure
  /-- What the last completed operation returned. -/
  answer : Answer
  deriving DecidableEq, Repr

/-- The machine. `regs`, `crtc`, `ga` and `fault` are the whole tuple of 10_state.md R50; `params`,
`target` and `host` are the model's own fields. -/
structure State where
  /-- The register bank `R[0]` to `R[13]` (R20, R21). -/
  regs : Vector Byte 14
  /-- The CRTC's counters. -/
  crtc : Crtc
  /-- The Gate Array. -/
  ga : GateArray
  /-- `FAULT`, the sticky failure mark (60_exceptions.md R194). -/
  fault : Bool
  /-- The parameters; no operation changes them (10_state.md R50). -/
  params : Params
  /-- The unit that takes the command words; no operation changes it. -/
  target : Target
  /-- The host's side. -/
  host : HostSide
  deriving DecidableEq, Repr

/-- The reasons a step can stop the machine with a fault: NONE. The failures the spec describes
(60_exceptions.md R190) are next states with `FAULT` set (R194), and every other operation is total
(R195). No constructor, so no fault can be raised, and nothing is hidden behind one (safe). Log 17. -/
inductive Fault where
  deriving DecidableEq, Repr

/-- The reasons the model gives an operation no meaning. -/
inductive Refusal where
  /-- Raised by an arm of `exec` that has no meaning yet; safe. -/
  | notModelled (mnemonic : String)
  /-- Raised by SETREG called with a value outside 0 to 255, for which the spec says a model "has no
  step" (30_encoding.md R83, decision D24); safe. No command word reaches it. Log 10. -/
  | registerValueOutOfRange (value : Int)
  deriving DecidableEq, Repr

/-- Power-on with the given parameters and `INIT_REG` (10_state.md R34, R49; 70_reset_and_hazards.md R231):
the RESET values in every counter and in the Gate Array, `FAULT` 0, the registers at `INIT_REG`. -/
def State.powerOn (p : Params) (initReg : Vector Byte 14) : State :=
  { regs := initReg
    crtc := { hcc := 0, vlc := 0, vcc := 0, hsc := 0, vsc := 0, nops := 0 }
    ga := { div := 0, irq := false, vcd := .disarmed }
    fault := false
    params := p
    target := .composed
    host := { program := [], busy := none, answer := .nothing } }

/-- The machine right after power-on, before the host has issued anything. Registers: log 1. -/
def State.reset : State := State.powerOn Config.params Config.initReg

end Sys2Proof.Machine
end

