-- ==== Sys2Proof/Machine/Ops.lean ====
section
/-! DEFINITION. Machine/Ops.lean: the named operations over the state that the meanings share: writing a part,
the Gate Array's events, failing, and which unit takes which word. -/

namespace Sys2Proof.Machine

/-! ## Reading and writing the parts of the state -/

/-- `R[i]` (00_scope.md R7). -/
def State.reg (s : State) (i : RegIndex) : Byte := s.regs[i]

/-- `R[i] <- v`: the only write to the register bank (10_state.md R30, R31). Nothing is hard-wired (R21). -/
def State.writeReg (s : State) (i : RegIndex) (v : Byte) : State := { s with regs := s.regs.set i v }

/-- Replace the CRTC's counters. -/
def State.withCrtc (s : State) (c : Crtc) : State := { s with crtc := c }

/-- Replace the Gate Array's state. -/
def State.withGa (s : State) (g : GateArray) : State := { s with ga := g }

/-- Hand `a` back to the host. -/
def State.withAnswer (s : State) (a : Answer) : State := { s with host := { s.host with answer := a } }

/-- Say which procedure is in progress. -/
def State.withBusy (s : State) (b : Option Procedure) : State := { s with host := { s.host with busy := b } }

/-- Say what the host has yet to issue. -/
def State.withProgram (s : State) (p : List HostItem) : State := { s with host := { s.host with program := p } }

/-- Say which unit takes the command words. -/
def State.withTarget (s : State) (t : Target) : State := { s with target := t }

/-! ## The Gate Array's events (40_gate_array.md) -/

/-- `DIV_PERIOD`, 52 (00_scope.md R6). -/
def divPeriod : BitVec 6 := 52#6

/-- `DIV_SPLIT`, 32 (00_scope.md R6). -/
def divSplit : BitVec 6 := 32#6

/-- `VCD` as the integer of 10_state.md R44. -/
def Countdown.toInt : Countdown → Int
  | .disarmed => -1
  | .zero => 0
  | .one => 1
  | .two => 2

/-- The fresh Gate Array that RESET installs (R106). -/
def GateArray.fresh : GateArray := { div := 0#6, irq := false, vcd := .disarmed }

/-- GA_ADV (R100). -/
def GateArray.advance (g : GateArray) : GateArray := { g with irq := false }

/-- GA_HSF part 1, the periodic divider (R101). `DIV_MOD` is 64: the addition is on 6 bits. -/
def GateArray.dividerPart (g : GateArray) : GateArray :=
  if g.div + 1#6 = divPeriod then { g with div := 0#6, irq := true } else { g with div := g.div + 1#6 }

/-- GA_HSF part 2, the vertical-sync countdown, on the `DIV` it is given (R101). A countdown of 1 is
brought to 0, consumed and disarmed in this event. -/
def GateArray.countdownPart (g : GateArray) : GateArray :=
  match g.vcd with
  | .disarmed => g
  | .zero => g
  | .two => { g with vcd := .one }
  | .one =>
    if divSplit ≤ g.div then { g with div := 0#6, vcd := .disarmed }
    else { div := 0#6, irq := true, vcd := .disarmed }

/-- GA_HSF (R101) in the order `GA_ORDER` names (R102). -/
def GateArray.hsyncFall (order : GaOrder) (g : GateArray) : GateArray :=
  match order with
  | .dividerFirst => g.dividerPart.countdownPart
  | .countdownFirst => g.countdownPart.dividerPart

/-- GA_VSS (R104); `VCD_ARM` is 2. -/
def GateArray.vsyncStart (g : GateArray) : GateArray := { g with vcd := .two }

/-! ## RESET's counters (41_crtc.md R144) -/

/-- Every counter of the CRTC at 0. -/
def Crtc.zeroed : Crtc := { hcc := 0#8, vlc := 0#8, vcc := 0#8, hsc := 0#8, vsc := 0#8, nops := 0 }

/-! ## Failing (60_exceptions.md)

Taking a failure is one operation. There is no return from one: "no return operation and nothing to
restore" (R201), so none stands beside it. -/

/-- The operation ends in failure `f`: `FAULT` is set, nothing else of the block changes, and the host is
handed `f` with its recorded value (R191, R193, R194, R200). -/
def State.raise (s : State) (f : Failure) : State :=
  { s with fault := true, host := { s.host with answer := .failed f } }

/-- The failure codes of R190 that the block can raise. -/
def Failure.code : Failure → Nat
  | .invalidRegisterIndex _ => 3
  | .invalidCommand _ => 5

/-! ## Which unit takes which operation (30_encoding.md R86) -/

/-- On the composed block the valid words are the host's eight operations; on the stand-alone Gate Array
unit they are 0x6000, 0x8000, 0x9000 and 0xA000. -/
def Target.takes (t : Target) (i : Instr) : Bool :=
  match i with
  | .tick => t == .composed
  | .setreg _ _ => t == .composed
  | .reset => t == .composed
  | .qhsync => t == .composed
  | .qvsync => t == .composed
  | .qborder => t == .composed
  | .qint => true
  | .runvs => t == .composed
  | .gaAdv => t == .gateArrayAlone
  | .gaHsf => t == .gateArrayAlone
  | .gaVss => t == .gateArrayAlone

/-- Run `k` if the unit takes operation `i`; otherwise its word is reserved there and raises
InvalidCommand (R86, R193). For the stand-alone unit's other words: DEDUCED, log 9. -/
def onTarget (i : Instr) (s : State) (k : State → State) : Host.Outcome State Fault Refusal :=
  if s.target.takes i then .next (k s) else .next (s.raise (.invalidCommand (encode i)))

end Sys2Proof.Machine
end

