-- ==== Sys2Proof/Machine/Flags.lean ====
section
/-! DEFINITION. Machine/Flags.lean: the four outputs, functions of the state at a boundary (10_state.md R47, R51). The
one stored flag, `IRQ`, is written by the Gate Array's events in Machine/Ops.lean. -/

namespace Sys2Proof.Machine

/-- `HSYNC = (HSC != 0)` (R47; 41_crtc.md R141). -/
def State.hsyncOut (s : State) : Bool := decide (s.crtc.hsc ≠ 0#8)

/-- `VSYNC = (VSC != 0)` (R47; 41_crtc.md R142). -/
def State.vsyncOut (s : State) : Bool := decide (s.crtc.vsc ≠ 0#8)

/-- `BORDER = (HCC >= R[1]) or (VCC >= R[6])`, unsigned (R47; 41_crtc.md R143; 00_scope.md R9). -/
def State.borderOut (s : State) : Bool :=
  decide ((s.reg 1).toNat ≤ s.crtc.hcc.toNat) || decide ((s.reg 6).toNat ≤ s.crtc.vcc.toNat)

/-- `INT = IRQ` (R51). -/
def State.intOut (s : State) : Bool := s.ga.irq

end Sys2Proof.Machine
end

