-- ==== Sys2Proof/Machine/Operands.lean ====
section
/-! DEFINITION. Machine/Operands.lean: the two operands of SETREG (30_encoding.md R83), the only operation that has any. -/

namespace Sys2Proof.Machine

/-- The register an index selects: none outside 0 to 13 (20_memory.md R61). -/
def regIndexOf (index : Int) : Option RegIndex :=
  if h : 0 ≤ index ∧ index ≤ 13 then some ⟨index.toNat, by omega⟩ else none

/-- The byte a value is: none outside 0 to 255, which a model "refuses" and "neither truncates nor faults"
(30_encoding.md R83, decision D24). -/
def byteOf (value : Int) : Option Byte :=
  if 0 ≤ value ∧ value ≤ 255 then some (BitVec.ofInt 8 value) else none

end Sys2Proof.Machine
end

