-- ==== Sys2Proof/Machine/Timing.lean ====
section
/-! DEFINITION. Machine/Timing.lean: the six steps of TICK (41_crtc.md R120), one definition each, in the order R132 makes
normative. `h`, `l`, `c` are integers that can be 256 and are never stored so (00_scope.md R9). -/

namespace Sys2Proof.Machine

/-- Step (a): GA_ADV (R121). -/
def tickAdvance (s : State) : State := s.withGa s.ga.advance

/-- Step (b): `NOPS <- NOPS + 1` (R122). -/
def tickNops (s : State) : State := s.withCrtc { s.crtc with nops := s.crtc.nops + 1 }

/-- Step (d): count the horizontal sync down; reaching 0 is the falling edge and calls GA_HSF (R124). -/
def tickHsyncWidth (s : State) : State :=
  if s.crtc.hsc = 0#8 then s
  else if s.crtc.hsc - 1#8 = 0#8 then
    (s.withCrtc { s.crtc with hsc := 0#8 }).withGa (s.ga.hsyncFall s.params.gaOrder)
  else s.withCrtc { s.crtc with hsc := s.crtc.hsc - 1#8 }

/-- Step (e): arm the horizontal sync when `h == R[2]`, whatever `HSC` held (R125). -/
def tickHsyncArm (h : Nat) (s : State) : State :=
  if h = (s.reg 2).toNat then s.withCrtc { s.crtc with hsc := s.params.hsw.toByte } else s

/-- Step (f) at a scanline end: count the vertical sync down (R127). -/
def lineVsyncWidth (s : State) : State :=
  if s.crtc.vsc = 0#8 then s else s.withCrtc { s.crtc with vsc := s.crtc.vsc - 1#8 }

/-- Step (f) at a row end: the vertical-sync trigger on the incremented `c`; arming calls GA_VSS (R130). -/
def rowVsyncTrigger (c : Nat) (s : State) : State :=
  if c = (s.reg 7).toNat ∧ s.crtc.vsc = 0#8 then
    (s.withCrtc { s.crtc with vsc := s.params.vsw.toByte }).withGa s.ga.vsyncStart
  else s

/-- `if c > R[4]: VCC <- 0 else: VCC <- c`: the vertical-total test (R131). -/
def wrapVcc (c : Nat) (s : State) : State :=
  s.withCrtc { s.crtc with vcc := if c > (s.reg 4).toNat then 0#8 else BitVec.ofNat 8 c }

/-- Step (f) at a row end (R129): the trigger first, then the vertical-total test. -/
def endRow (s : State) : State :=
  wrapVcc (s.crtc.vcc.toNat + 1)
    (rowVsyncTrigger (s.crtc.vcc.toNat + 1) (s.withCrtc { s.crtc with vlc := 0#8 }))

/-- Step (f) at a scanline end that ends no row: with `VCC_WRAP_SCOPE = line` the vertical-total test is
made here too (R131). -/
def wrapVccAtLineEnd (s : State) : State :=
  match s.params.vccWrapScope with
  | .row => s
  | .line => wrapVcc s.crtc.vcc.toNat s

/-- Step (f) at a scanline end, after the vertical sync width: the raster line (R128). -/
def endLine (s : State) : State :=
  if s.crtc.vlc.toNat + 1 > (s.reg 9).toNat then endRow s
  else wrapVccAtLineEnd (s.withCrtc { s.crtc with vlc := BitVec.ofNat 8 (s.crtc.vlc.toNat + 1) })

/-- Step (f): the scanline ends when `h` exceeds `R[0]` (R126). -/
def tickLine (h : Nat) (s : State) : State :=
  if h > (s.reg 0).toNat then endLine (lineVsyncWidth (s.withCrtc { s.crtc with hcc := 0#8 }))
  else s.withCrtc { s.crtc with hcc := BitVec.ofNat 8 h }

/-- One TICK (R120), with step (c)'s `h = HCC + 1` (R123). -/
def State.tick (s : State) : State :=
  let h := s.crtc.hcc.toNat + 1
  tickLine h (tickHsyncArm h (tickHsyncWidth (tickNops (tickAdvance s))))

end Sys2Proof.Machine
end

