-- ==== Sys2Proof/Machine/CrtcFamily.lean ====
section
/-! DEFINITION. Machine/CrtcFamily.lean: the CRTC's operations TICK, SETREG, RESET and the three CRTC queries (41_crtc.md). -/

namespace Sys2Proof.Machine

/-- TICK (R120). -/
def execTick (s : State) : Host.Outcome State Fault Refusal :=
  onTarget .tick s fun s => s.tick.withAnswer .nothing

/-- SETREG on a value that is a byte (R140): a bad index fails before anything is written. -/
def setRegister (index : Int) (v : Byte) (s : State) : State :=
  match regIndexOf index with
  | none => s.raise (.invalidRegisterIndex index)
  | some i => (s.writeReg i v).withAnswer .nothing

/-- SETREG (R140). A value outside 0 to 255 has no step (30_encoding.md R83, decision D24; log 10). -/
def execSetreg (index value : Int) (s : State) : Host.Outcome State Fault Refusal :=
  match byteOf value with
  | none => .refused (.registerValueOutOfRange value)
  | some v => onTarget (.setreg index value) s (setRegister index v)

/-- RESET (R144): the counters and the Gate Array; not the registers and not `FAULT`. -/
def execReset (s : State) : Host.Outcome State Fault Refusal :=
  onTarget .reset s fun s => ((s.withCrtc Crtc.zeroed).withGa GateArray.fresh).withAnswer .nothing

/-- QHSYNC (R141). -/
def execQhsync (s : State) : Host.Outcome State Fault Refusal :=
  onTarget .qhsync s fun s => s.withAnswer (.bit s.hsyncOut)

/-- QVSYNC (R142). -/
def execQvsync (s : State) : Host.Outcome State Fault Refusal :=
  onTarget .qvsync s fun s => s.withAnswer (.bit s.vsyncOut)

/-- QBORDER (R143). -/
def execQborder (s : State) : Host.Outcome State Fault Refusal :=
  onTarget .qborder s fun s => s.withAnswer (.bit s.borderOut)

end Sys2Proof.Machine
end

