-- ==== Sys2Proof/Machine/GateArrayFamily.lean ====
section
/-! DEFINITION. Machine/GateArrayFamily.lean: the Gate Array's operations QINT, GA_ADV, GA_HSF and GA_VSS (40_gate_array.md). -/

namespace Sys2Proof.Machine

/-- QINT (R105): reading `IRQ` does not clear it. -/
def execQint (s : State) : Host.Outcome State Fault Refusal :=
  onTarget .qint s fun s => s.withAnswer (.bit s.intOut)

/-- GA_ADV (R100). -/
def execGaAdv (s : State) : Host.Outcome State Fault Refusal :=
  onTarget .gaAdv s fun s => (s.withGa s.ga.advance).withAnswer .nothing

/-- GA_HSF (R101). -/
def execGaHsf (s : State) : Host.Outcome State Fault Refusal :=
  onTarget .gaHsf s fun s => (s.withGa (s.ga.hsyncFall s.params.gaOrder)).withAnswer .nothing

/-- GA_VSS (R104). -/
def execGaVss (s : State) : Host.Outcome State Fault Refusal :=
  onTarget .gaVss s fun s => (s.withGa s.ga.vsyncStart).withAnswer .nothing

end Sys2Proof.Machine
end

