-- ==== Sys2Proof/Machine/HostProcedures.lean ====
section
/-! DEFINITION. Machine/HostProcedures.lean: RUNVS and the host idiom WAITINT (42_host_procedures.md R160, R162). Neither is
atomic: each is a sequence of atomic operations, so one step of the model is one of those operations, and
`host.busy` says where the procedure stands. Nothing bounds them (70_reset_and_hazards.md R240): a wait that
never ends is a run whose every step is a step of the wait. Logs 7 and 12. -/

namespace Sys2Proof.Machine

/-- RUNVS at the test of its second loop: TICK while `VSC == 0`. The test after the TICK is made at once,
so that the procedure is over in the step of its last TICK. -/
def runvsAwait (s : State) : State :=
  if s.vsyncOut then s.withBusy none
  else s.tick.withBusy (if s.tick.vsyncOut then none else some .runvsAwait)

/-- RUNVS at the test of its first loop: TICK while `VSC != 0`, then the second loop. -/
def runvsLeave (s : State) : State :=
  if s.vsyncOut then s.tick.withBusy (some .runvsLeave) else runvsAwait s

/-- RUNVS (R160): the first step of the procedure. It returns nothing. -/
def execRunvs (s : State) : Host.Outcome State Fault Refusal :=
  onTarget .runvs s fun s => runvsLeave (s.withAnswer .nothing)

/-- WAITINT, its TICK (R162): it ticks first. -/
def waitTick (s : State) : State := (s.tick.withAnswer .nothing).withBusy (some .waitQuery)

/-- WAITINT, its QINT: over when it answers 1. -/
def waitQuery (s : State) : State :=
  (s.withAnswer (.bit s.intOut)).withBusy (if s.intOut then none else some .waitTick)

/-- The next operation of the procedure in progress. -/
def proceed (p : Procedure) (s : State) : State :=
  match p with
  | .runvsLeave => runvsLeave s
  | .runvsAwait => runvsAwait s
  | .waitTick => waitTick s
  | .waitQuery => waitQuery s

/-- A step of a procedure. Both are made of TICKs, which the stand-alone Gate Array unit does not take:
there the TICK's word raises InvalidCommand and the procedure is over (30_encoding.md R86; log 9). -/
def resume (p : Procedure) (s : State) : State :=
  match s.target with
  | .composed => proceed p s
  | .gateArrayAlone => (s.raise (.invalidCommand (encode .tick))).withBusy none

end Sys2Proof.Machine
end

