-- ==== Sys2Proof/Machine/Dispatch.lean ====
section
/-! DEFINITION. Machine/Dispatch.lean: one arm per operation. -/

namespace Sys2Proof.Machine

def exec (i : Instr) (s : State) : Host.Outcome State Fault Refusal :=
  match i with
  | .tick => Sys2Proof.Machine.execTick s
  | .setreg index value => Sys2Proof.Machine.execSetreg index value s
  | .reset => Sys2Proof.Machine.execReset s
  | .qhsync => Sys2Proof.Machine.execQhsync s
  | .qvsync => Sys2Proof.Machine.execQvsync s
  | .qborder => Sys2Proof.Machine.execQborder s
  | .qint => Sys2Proof.Machine.execQint s
  | .runvs => Sys2Proof.Machine.execRunvs s
  | .gaAdv => Sys2Proof.Machine.execGaAdv s
  | .gaHsf => Sys2Proof.Machine.execGaHsf s
  | .gaVss => Sys2Proof.Machine.execGaVss s

end Sys2Proof.Machine
end

