-- ==== Sys2Proof/Machine/Fetch.lean ====
section
/-! DEFINITION. Machine/Fetch.lean: taking the host's next item. The word is handed to the block, not fetched from a memory
(30_encoding.md R81); the host's own list of what it has yet to issue stands in `host.program`. -/

namespace Sys2Proof.Machine

/-- One command word: it is decoded first, and a reserved word raises InvalidCommand and is never examined
further (30_encoding.md R84, R85; 60_exceptions.md R193, R199 (e)). -/
def runWord (w : CmdWord) (s : State) : Host.Outcome State Fault Refusal :=
  match decode w with
  | .instr i => exec i s
  | .reserved _ => .next (s.raise (.invalidCommand w))

/-- One item of the host's program. -/
def runItem (x : HostItem) (s : State) : Host.Outcome State Fault Refusal :=
  match x with
  | .word w => runWord w s
  | .waitInt => .next (resume .waitTick s)

/-- The next item of the program, if the host has one. With none it idles, and "idling changes nothing"
(60_exceptions.md R205). -/
def runProgram (s : State) : Host.Outcome State Fault Refusal :=
  match s.host.program with
  | [] => .next s
  | x :: rest => runItem x (s.withProgram rest)

/-- The unit on which a word is valid: the present one where that takes it or no unit does, else the other
(30_encoding.md R86). -/
def targetFor (w : CmdWord) (t : Target) : Target :=
  match decode w with
  | .reserved _ => t
  | .instr i =>
    if t.takes i then t else if t = .composed then .gateArrayAlone else .composed

/-- The host issues `w` next: no procedure is in progress, and the word goes to a unit that takes it. -/
def State.issueNext (s : State) (w : CmdWord) : State :=
  ((s.withTarget (targetFor w s.target)).withBusy none).withProgram (.word w :: s.host.program)

end Sys2Proof.Machine
end

