-- ==== Sys2Proof/Machine/Step.lean ====
section
/-! DEFINITION. Machine/Step.lean: one step of the machine, and the placing of a command word where the next step takes it. -/

namespace Sys2Proof.Machine

/-- One step: the next operation of a procedure in progress, else the host's next item. Operations take
effect one at a time in the order the host issues them (20_memory.md R68). -/
def step (s : State) : Host.Outcome State Fault Refusal :=
  match s.host.busy with
  | some p => .next (resume p s)
  | none => runProgram s

/-- `s` with the word that spec/opcode_table.json numbers as `w` issued next. Logs 5, 9 and 18. -/
def State.withFetchWord (s : State) (nbits w : Nat) : State := s.issueNext (tableWord nbits w)

end Sys2Proof.Machine
end

