-- ==== Sys2Proof/Machine/Assembler.lean ====
section
/-! DEFINITION. Machine/Assembler.lean: the pseudo-operations of 30_encoding.md R89 and the written syntax of R88, as a
function from a host program's text to the items the host issues. A line is a list of characters. -/

namespace Sys2Proof.Machine

/-- One line of a host program (R88, R89). RUNVS is an operation with a word of its own. -/
inductive SourceLine where
  /-- Nothing, or a comment only. -/
  | blank
  | op (i : Instr)
  | ticks (n : Nat)
  | force (index value : Int)
  | waitInt
  deriving DecidableEq, Repr

/-- The fixed expansion of a line (R89). WAITINT is a loop, so it stays one item that steps unroll. -/
def SourceLine.expand (l : SourceLine) : List HostItem :=
  match l with
  | .blank => []
  | .op i => [.word (encode i)]
  | .ticks n => List.replicate n (.word (encode .tick))
  | .force index value => [.word (encode (.setreg index value)), .word (encode .reset)]
  | .waitInt => [.waitInt]

/-- A line can be assembled if its operands fit a command word (30_encoding.md R83). -/
def SourceLine.encodable (l : SourceLine) : Bool :=
  match l with
  | .blank => true
  | .op i => i.wf
  | .ticks _ => true
  | .force index value => (Instr.setreg index value).wf
  | .waitInt => true

/-- The value of a digit in a base up to 16. -/
def digitIn (base : Nat) (c : Char) : Option Nat :=
  let n := c.toNat
  let d := if 48 ≤ n ∧ n ≤ 57 then n - 48
    else if 65 ≤ n ∧ n ≤ 70 then n - 55
    else if 97 ≤ n ∧ n ≤ 102 then n - 87
    else base
  if d < base then some d else none

/-- Digits, most significant first, after the value read so far. -/
def digitsIn (base acc : Nat) : List Char → Option Nat
  | [] => some acc
  | c :: cs => (digitIn base c).bind fun d => digitsIn base (acc * base + d) cs

/-- A decimal number, at least one digit. -/
def decimal (cs : List Char) : Option Nat := if cs = [] then none else digitsIn 10 0 cs

/-- `v`: a decimal or `0x` hexadecimal byte (R88). -/
def byteText (cs : List Char) : Option Nat :=
  match cs with
  | '0' :: 'x' :: ds => if ds = [] then none else digitsIn 16 0 ds
  | ds => decimal ds

/-- `i`: a decimal index, or the register name `R0` to `R13` (R88). -/
def indexText (cs : List Char) : Option Nat :=
  match cs with
  | 'R' :: ds => (decimal ds).bind fun n => if n ≤ 13 then some n else none
  | ds => decimal ds

/-- Cut a comment, and the `-> 1` with which a listing shows a query's result (R88). -/
def dropComment : List Char → List Char
  | [] => []
  | ';' :: _ => []
  | '-' :: '>' :: _ => []
  | c :: cs => c :: dropComment cs

/-- Split at blanks and commas; `word` holds the characters of the present token, last first. -/
def tokensFrom (word : List Char) : List Char → List (List Char)
  | [] => if word = [] then [] else [word.reverse]
  | c :: cs =>
    if c = ' ' ∨ c = ',' ∨ c = '\t' then
      if word = [] then tokensFrom [] cs else word.reverse :: tokensFrom [] cs
    else tokensFrom (c :: word) cs

/-- The mnemonics without operands (R88, R89). -/
def bareMnemonics : List (List Char × SourceLine) :=
  [(['T', 'I', 'C', 'K'], .op .tick), (['R', 'E', 'S', 'E', 'T'], .op .reset),
   (['Q', 'H', 'S', 'Y', 'N', 'C'], .op .qhsync), (['Q', 'V', 'S', 'Y', 'N', 'C'], .op .qvsync),
   (['Q', 'B', 'O', 'R', 'D', 'E', 'R'], .op .qborder), (['Q', 'I', 'N', 'T'], .op .qint),
   (['R', 'U', 'N', 'V', 'S'], .op .runvs), (['G', 'A', '_', 'A', 'D', 'V'], .op .gaAdv),
   (['G', 'A', '_', 'H', 'S', 'F'], .op .gaHsf), (['G', 'A', '_', 'V', 'S', 'S'], .op .gaVss),
   (['W', 'A', 'I', 'T', 'I', 'N', 'T'], .waitInt)]

/-- A line from its tokens. -/
def lineOf (tokens : List (List Char)) : Option SourceLine :=
  match tokens with
  | [] => some .blank
  | [m] => bareMnemonics.lookup m
  | [m, n] => if m = ['T', 'I', 'C', 'K', 'S'] then (decimal n).map .ticks else none
  | [m, i, v] =>
    (indexText i).bind fun index => (byteText v).bind fun value =>
      if m = ['S', 'E', 'T', 'R', 'E', 'G'] then some (.op (.setreg index value))
      else if m = ['F', 'O', 'R', 'C', 'E'] then some (.force index value)
      else none
  | _ => none

/-- Read one line of R88; none if it is not one, or if an operand does not fit a command word. -/
def parseLine (text : List Char) : Option SourceLine :=
  (lineOf (tokensFrom [] (dropComment text))).bind fun l => if l.encodable then some l else none

/-- A host program: the items the host issues. -/
def assembleText : List (List Char) → Option (List HostItem)
  | [] => some []
  | l :: ls => (parseLine l).bind fun x => (assembleText ls).map fun r => x.expand ++ r

end Sys2Proof.Machine
end

