-- ==== Sys2Proof/Safety.lean ====
section
/-! DEFINITION. Safety.lean: what counts as a good state, and the conditions the spec's rules name, in the terms the
statements use. -/

namespace Sys2Proof.Machine

/-- A state that may end a run a claim speaks about: "`FAULT = 1` is never a final state"
(60_exceptions.md R194). -/
def State.valid (s : State) : Prop := s.fault = false

/-- The bounds of 41_crtc.md R137 that a register write can break: `HCC <= R0`, `VLC <= R9`, `VCC <= R4`. -/
def State.withinBounds (s : State) : Prop :=
  s.crtc.hcc.toNat ≤ (s.reg 0).toNat ∧ s.crtc.vlc.toNat ≤ (s.reg 9).toNat ∧
  s.crtc.vcc.toNat ≤ (s.reg 4).toNat

/-- The bounds of R137 that nothing can break: `HSC <= HSW`, `VSC <= VSW`. -/
def State.syncsWithinWidths (s : State) : Prop :=
  s.crtc.hsc.toNat ≤ s.params.hsw.toByte.toNat ∧ s.crtc.vsc.toNat ≤ s.params.vsw.toByte.toNat

/-- The Gate Array values reachable from the fresh state: `DIV` in 0 to 51, `VCD` one of -1, 1, 2
(40_gate_array.md R108 (b), (c)). -/
def GateArray.reachable (g : GateArray) : Prop := g.div.toNat ≤ 51 ∧ g.vcd ≠ .zero

/-- A failure handed to the host has set `FAULT` (60_exceptions.md R191, R193). -/
def State.failureMarked (s : State) : Prop := ∀ f, s.host.answer = .failed f → s.fault = true

/-- While RUNVS is in its second loop no vertical sync is active (42_host_procedures.md R160). -/
def State.awaitsWithoutSync (s : State) : Prop := s.host.busy = some .runvsAwait → s.crtc.vsc = 0#8

/-- What every operation keeps, whatever the registers hold and whatever the host writes. -/
def State.Inv (s : State) : Prop :=
  s.syncsWithinWidths ∧ s.ga.reachable ∧ s.failureMarked ∧ s.awaitsWithoutSync

/-- The raster position at which a frame begins: `HCC`, `VLC` and `VCC` all 0. -/
def State.atOrigin (s : State) : Prop := s.crtc.hcc = 0#8 ∧ s.crtc.vlc = 0#8 ∧ s.crtc.vcc = 0#8

/-- `t` is the state after `n` TICK operations from `s` with nothing between them ("TICKS n", R89). -/
def TicksTo : Nat → State → State → Prop
  | 0, s, t => t = s
  | n + 1, s, t => ∃ u, TicksTo n s u ∧ exec .tick u = .next t

/-- `n` hsync falls with no vertical-sync start between them, each in a tick of its own: GA_ADV, then
GA_HSF (95_test_vectors.md section 4). -/
def GateArray.falls (o : GaOrder) : Nat → GateArray → GateArray
  | 0, g => g
  | n + 1, g => ((g.falls o n).advance).hsyncFall o

end Sys2Proof.Machine
end

