-- ==== Sys2Proof/Certificates/Slice0/Obligations.lean ====
section
/-! DEFINITION. Certificates/Slice0/Obligations.lean: the statements for the provers. Register `R[k]` is written
`s.regs[k]`; `s.target = .composed` says that the command words go to the composed block, and
`.gateArrayAlone` that they go to the stand-alone Gate Array unit (30_encoding.md R86). A statement that gives
the next state as `{ s with … }` says that everything not named there is unchanged. -/

open Sys2Proof Sys2Proof.Machine

/-! ## The command word -/

/-- Decoding the word of a well-formed operation gives the operation back, with its operands. The word is
the spec's own choice (decision D2); R85: each operation with its operands has exactly one word. -/
def Obligations.DecodeOfEncodeIsTheOperation : Prop :=
  ∀ i : Instr, i.wf = true → decode (encode i) = .instr i

/-- Each valid word spells one operation with one operand tuple (R85), whose word it is. -/
def Obligations.EncodeOfDecodeIsTheWord : Prop :=
  ∀ (w : CmdWord) (i : Instr), decode w = .instr i → i.wf = true ∧ encode i = w

/-- The set of valid words, as R85 lists it, and the operations of the words 0x1E00 to 0x1FFF. -/
def Obligations.ValidWordsAreTheListedOnes : Prop :=
  ∀ w : CmdWord,
    ((∃ i, decode w = .instr i) ↔
      w ∈ [0x0000#16, 0x2000#16, 0x3000#16, 0x4000#16, 0x5000#16, 0x6000#16, 0x7000#16, 0x8000#16,
        0x9000#16, 0xA000#16] ∨ (0x1000 ≤ w.toNat ∧ w.toNat ≤ 0x1FFF)) ∧
    (0x1E00 ≤ w.toNat ∧ w.toNat ≤ 0x1FFF →
      ∃ index value, decode w = .instr (.setreg index value) ∧ 13 < index)

/-- The words of R82's table and some of the encoding vectors decode to what they stand for (D2). -/
def Obligations.OpcodeTableWordsDecode : Prop :=
  decode 0x0000#16 = .instr .tick ∧ decode 0x2000#16 = .instr .reset ∧
  decode 0x3000#16 = .instr .qhsync ∧ decode 0x4000#16 = .instr .qvsync ∧
  decode 0x5000#16 = .instr .qborder ∧ decode 0x6000#16 = .instr .qint ∧
  decode 0x7000#16 = .instr .runvs ∧ decode 0x8000#16 = .instr .gaAdv ∧
  decode 0x9000#16 = .instr .gaHsf ∧ decode 0xA000#16 = .instr .gaVss ∧
  decode 0x1228#16 = .instr (.setreg 2 40) ∧ decode 0x1DFF#16 = .instr (.setreg 13 255) ∧
  decode 0x1E00#16 = .instr (.setreg 14 0) ∧ decode 0xB000#16 = .reserved .opcode ∧
  decode 0x0001#16 = .reserved .unusedField ∧ decode 0x2100#16 = .reserved .unusedField

/-- Every cause of InvalidCommand on the composed block: a reserved `op` (R84), a field that must be 0 and
is not (R85), a Gate Array event word from the host (R86). The word is recorded, `FAULT` is set, and no
other state of the block changes (R193; the spec's decisions D3 and D23). -/
def Obligations.ReservedWordRaisesInvalidCommand : Prop :=
  ∀ (s : State) (w : CmdWord) (rest : List HostItem),
    s.host.busy = none → s.host.program = .word w :: rest →
    (0xB ≤ w.toNat / 4096 ∨ (w.toNat / 4096 ≠ 1 ∧ w.toNat % 4096 ≠ 0) ∨
      (s.target = .composed ∧ (w = 0x8000#16 ∨ w = 0x9000#16 ∨ w = 0xA000#16))) →
    step s = .next { s with
      fault := true
      host := { s.host with program := rest, answer := .failed (.invalidCommand w) } }

/-- An operation issued to the unit that does not take it raises InvalidCommand with its word. On the
composed block these are the Gate Array's events (R86, D23); that the stand-alone unit treats the words
it does not list in the same way is the model's reading (log 9). -/
def Obligations.WordsOfTheOtherUnitAreReserved : Prop :=
  ∀ (s : State) (i : Instr), i.wf = true →
    ((s.target = .composed ∧ (i = .gaAdv ∨ i = .gaHsf ∨ i = .gaVss)) ∨
      (s.target = .gateArrayAlone ∧ i ≠ .qint ∧ i ≠ .gaAdv ∧ i ≠ .gaHsf ∧ i ≠ .gaVss)) →
    exec i s = .next { s with
      fault := true
      host := { s.host with answer := .failed (.invalidCommand (encode i)) } }

/-! ## One step -/

/-- With no procedure in progress, a step takes the host's next word, decodes it and runs the operation;
nothing is around it but that the word is no longer pending (log 5). -/
def Obligations.StepRunsTheDecodedOperation : Prop :=
  ∀ (s : State) (w : CmdWord) (rest : List HostItem) (i : Instr),
    s.host.busy = none → s.host.program = .word w :: rest → decode w = .instr i →
    step s = exec i { s with host := { s.host with program := rest } }

/-- With RUNVS or WAITINT in progress, a step is the procedure's next operation: the loops of R160 and R162,
one TICK or QINT at a time. Step by step is the model's way of running them (logs 7 and 12). -/
def Obligations.StepContinuesTheProcedure : Prop :=
  ∀ s : State, s.target = .composed →
    (s.host.busy = some .runvsLeave → s.crtc.vsc ≠ 0#8 →
      step s = .next (s.tick.withBusy (some .runvsLeave))) ∧
    ((s.host.busy = some .runvsLeave ∨ s.host.busy = some .runvsAwait) → s.crtc.vsc = 0#8 →
      step s = .next (s.tick.withBusy (if s.tick.crtc.vsc = 0#8 then some .runvsAwait else none))) ∧
    (s.host.busy = some .waitTick → ∃ t, exec .tick s = .next t ∧
      step s = .next (t.withBusy (some .waitQuery))) ∧
    (s.host.busy = some .waitQuery → ∃ t, exec .qint s = .next t ∧
      step s = .next (t.withBusy (if s.ga.irq then none else some .waitTick))) ∧
    (∀ rest, s.host.busy = none → s.host.program = .waitInt :: rest →
      ∃ t, exec .tick (s.withProgram rest) = .next t ∧ step s = .next (t.withBusy (some .waitQuery)))

/-- A host with nothing to issue idles, "and idling changes nothing" (60_exceptions.md R205; log 5). -/
def Obligations.IdleStepChangesNothing : Prop :=
  ∀ s : State, s.host.busy = none → s.host.program = [] → step s = .next s

/-- No operation of the block and no step of the machine stops: failures are next states (log 8), and
everything else is total (R195). Only a register value that is no byte has no step (D24). -/
def Obligations.EveryOperationAndEveryStepCompletes : Prop :=
  (∀ (s : State) (i : Instr), (∀ index value, i = .setreg index value → 0 ≤ value ∧ value ≤ 255) →
    ∃ t, exec i s = .next t) ∧
  (∀ s : State, ∃ t, step s = .next t)

/-! ## Power-on and RESET -/

/-- Power-on (R34, R49, R231, decisions D5, D8, D18): the registers are `INIT_REG`, whatever it is, and
"RESET after power-on changes nothing". -/
def Obligations.PowerOnIsTheResetStateWithInitReg : Prop :=
  ∀ (p : Params) (initReg : Vector Byte 14),
    (State.powerOn p initReg).regs = initReg ∧ (State.powerOn p initReg).fault = false ∧
    (State.powerOn p initReg).params = p ∧
    exec .reset (State.powerOn p initReg) = .next (State.powerOn p initReg)

/-- RESET (R144): every counter 0, a fresh Gate Array (its values are decision D8), the register bank and
`FAULT` unchanged. -/
def Obligations.ResetZeroesCountersAndGateArray : Prop :=
  ∀ s : State, s.target = .composed →
    exec .reset s = .next { s with
      crtc := { hcc := 0#8, vlc := 0#8, vcc := 0#8, hsc := 0#8, vsc := 0#8, nops := 0 }
      ga := { div := 0#6, irq := false, vcd := .disarmed }
      host := { s.host with answer := .nothing } }

/-- "calling `reset_counters()` twice in a row yields the same state as calling it once" (R145). -/
def Obligations.ResetTwiceIsResetOnce : Prop :=
  ∀ s : State, s.target = .composed → ∃ t, exec .reset s = .next t ∧ exec .reset t = .next t

/-! ## The register bank -/

/-- A register changes only by a SETREG that the host issues (R31, R33). That this SETREG changes no counter and
nothing of the Gate Array is the spec's own decision D12 (R140). -/
def Obligations.RegistersChangeOnlyBySetreg : Prop :=
  ∀ s t : State, step s = .next t → t.regs ≠ s.regs →
    s.host.busy = none ∧ t.crtc = s.crtc ∧ t.ga = s.ga ∧
    ∃ (w : CmdWord) (rest : List HostItem) (i : RegIndex) (v : Byte),
      s.host.program = .word w :: rest ∧ decode w = .instr (.setreg (i.val : Int) (v.toNat : Int)) ∧
      t.regs = s.regs.set i v

/-- SETREG with an index 0 to 13 writes that register and nothing else of the block (R140, decision D12;
R21: the value is stored unchanged in every register, the unused ones too). -/
def Obligations.SetregWritesTheSelectedRegister : Prop :=
  ∀ (s : State) (i : RegIndex) (v : Byte), s.target = .composed →
    ∃ t, exec (.setreg (i.val : Int) (v.toNat : Int)) s = .next t ∧
      t.regs[i] = v ∧ (∀ j : RegIndex, j ≠ i → t.regs[j] = s.regs[j]) ∧
      t.crtc = s.crtc ∧ t.ga = s.ga ∧ t.fault = s.fault ∧ t.params = s.params ∧
      t.target = s.target ∧ t.host = { s.host with answer := .nothing }

/-- Every integer index outside 0 to 13 raises InvalidRegisterIndex, which records it, and writes nothing;
every index inside does not fail; a word can express only 14 and 15 out of range (R61). That the failure
sets `FAULT` is the spec's decision D14 (R191, R194); that it is a next state from which the machine goes on
is the model's choice, log 8. -/
def Obligations.SetregOutOfRangeIndexFails : Prop :=
  (∀ (s : State) (index value : Int), s.target = .composed → 0 ≤ value → value ≤ 255 →
    (index < 0 ∨ 13 < index) →
    exec (.setreg index value) s = .next { s with
      fault := true
      host := { s.host with answer := .failed (.invalidRegisterIndex index) } }) ∧
  (∀ (s : State) (index value : Int), s.target = .composed → 0 ≤ value → value ≤ 255 →
    0 ≤ index → index ≤ 13 →
    ∃ t, exec (.setreg index value) s = .next t ∧ t.fault = s.fault ∧ t.host.answer = .nothing) ∧
  (∀ (w : CmdWord) (index value : Int), decode w = .instr (.setreg index value) →
    0 ≤ index ∧ index ≤ 15)

/-- Decision D24: SETREG called with a value outside 0 to 255 has no step; the model refuses it by name
(log 10). -/
def Obligations.SetregValueOutsideAByteIsRefused : Prop :=
  ∀ (s : State) (index value : Int), (value < 0 ∨ 255 < value) →
    exec (.setreg index value) s = .refused (.registerValueOutOfRange value)

/-- R29: the registers 3, 5, 8, 10, 11, 12 and 13 are stored when written and nothing reads them: an
operation other than SETREG does the same whatever they hold. -/
def Obligations.UnusedRegistersAreStoredAndInert : Prop :=
  (∀ (s t : State) (i : Instr) (r : Vector Byte 14),
    (∀ j : RegIndex, j ∈ [0, 1, 2, 4, 6, 7, 9] → r[j] = s.regs[j]) →
    (∀ index value, i ≠ .setreg index value) →
    exec i s = .next t → exec i { s with regs := r } = .next { t with regs := r }) ∧
  (∀ (s : State) (j : RegIndex) (v : Byte), s.target = .composed → j ∈ [3, 5, 8, 10, 11, 12, 13] →
    ∃ t, exec (.setreg (j.val : Int) (v.toNat : Int)) s = .next t ∧ t.regs[j] = v)

/-! ## The queries -/

/-- QHSYNC and QVSYNC answer whether the counter is non-zero (R141, R142, decision D11) and change nothing
of the block. -/
def Obligations.SyncQueriesReadTheActiveCounters : Prop :=
  ∀ s : State, s.target = .composed →
    exec .qhsync s = .next { s with
      host := { s.host with answer := .bit (decide (s.crtc.hsc ≠ 0#8)) } } ∧
    exec .qvsync s = .next { s with
      host := { s.host with answer := .bit (decide (s.crtc.vsc ≠ 0#8)) } }

/-- QBORDER (R143): 1 exactly when `HCC >= R[1]` or `VCC >= R[6]`; no state of the block is written. With
R1 = 0 or R6 = 0 it is always 1; with R1 > R0 and R6 > R4 it is 0 while the counters are in bounds. -/
def Obligations.BorderQueryComparesHccAndVcc : Prop :=
  ∀ s : State, s.target = .composed →
    ∃ b : Bool, exec .qborder s = .next { s with host := { s.host with answer := .bit b } } ∧
      (b = true ↔ s.regs[1].toNat ≤ s.crtc.hcc.toNat ∨ s.regs[6].toNat ≤ s.crtc.vcc.toNat) ∧
      (s.regs[1] = 0#8 ∨ s.regs[6] = 0#8 → b = true) ∧
      (s.withinBounds → s.regs[0].toNat < s.regs[1].toNat → s.regs[4].toNat < s.regs[6].toNat →
        b = false)

/-- QINT answers `IRQ` and does not clear it (R105), on the composed block and on the stand-alone unit. -/
def Obligations.InterruptQueryReadsIrq : Prop :=
  ∀ s : State, exec .qint s = .next { s with host := { s.host with answer := .bit s.ga.irq } }

/-! ## The Gate Array's events -/

/-- GA_ADV clears `IRQ` and nothing else (R100). Inside the composed block it is the first sub-step of every
TICK: a TICK goes as it would with `IRQ` already 0, and one without an hsync fall leaves `IRQ` 0. The host
cannot issue it there: that its word then raises InvalidCommand is the spec's decision D23 (R86), and that
the failure is a next state is the model's choice, log 8. -/
def Obligations.GaAdvClearsThePendingInterrupt : Prop :=
  decode 0x8000#16 = .instr .gaAdv ∧
  (∀ s : State, s.target = .gateArrayAlone →
    exec .gaAdv s = .next { s with
      ga := { s.ga with irq := false }, host := { s.host with answer := .nothing } }) ∧
  (∀ s : State, s.target = .composed →
    ∃ t, exec .tick s = .next t ∧ exec .tick { s with ga := { s.ga with irq := false } } = .next t ∧
      (s.crtc.hsc ≠ 1#8 → t.ga.irq = false)) ∧
  (∀ s : State, s.target = .composed → ∃ t, exec .gaAdv s = .next t ∧ t.ga = s.ga ∧
    t.host.answer = .failed (.invalidCommand 0x8000#16))

/-- GA_VSS arms the countdown to 2, whatever it held, and nothing else (R104). Inside the composed block it
is issued by a TICK in which `VSC` is armed, and by nothing else: no other TICK brings the countdown to 2,
and the host cannot issue it there. That its word then raises InvalidCommand is the spec's decision D23
(R86), and that the failure is a next state is the model's choice, log 8. -/
def Obligations.GaVssArmsTheCountdown : Prop :=
  decode 0xA000#16 = .instr .gaVss ∧
  (∀ s : State, s.target = .gateArrayAlone →
    exec .gaVss s = .next { s with
      ga := { s.ga with vcd := .two }, host := { s.host with answer := .nothing } }) ∧
  (∀ s : State, s.target = .composed →
    let armed : Bool := decide (s.crtc.hcc.toNat + 1 > s.regs[0].toNat) &&
      decide (s.crtc.vlc.toNat + 1 > s.regs[9].toNat) &&
      decide (s.crtc.vcc.toNat + 1 = s.regs[7].toNat) && decide (s.crtc.vsc.toNat ≤ 1)
    ∃ t, exec .tick s = .next t ∧
      (armed = true → t.crtc.vsc.toNat = s.params.vsw.pred.val + 1 ∧ t.ga.vcd = .two) ∧
      (armed = false → t.ga.vcd = .two → s.ga.vcd = .two)) ∧
  (∀ s : State, s.target = .composed → ∃ t, exec .gaVss s = .next t ∧ t.ga = s.ga ∧
    t.host.answer = .failed (.invalidCommand 0xA000#16))

/-- R107: the Gate Array's four operations are defined on every value of `DIV`, `IRQ` and `VCD` and raise
nothing. -/
def Obligations.GateArrayOperationsAreTotal : Prop :=
  ∀ (s : State) (i : Instr), s.target = .gateArrayAlone →
    (i = .gaAdv ∨ i = .gaHsf ∨ i = .gaVss ∨ i = .qint) →
    ∃ t, exec i s = .next t ∧ t.fault = s.fault ∧ (∀ f, t.host.answer ≠ .failed f) ∧
      t.regs = s.regs ∧ t.crtc = s.crtc ∧ t.params = s.params ∧ t.target = s.target ∧
      t.host.program = s.host.program ∧ t.host.busy = s.host.busy

/-- The case table of GA_HSF (R103), with `GA_ORDER = divider_first` (decision D9). -/
def Obligations.GaHsfFollowsTheCaseTable : Prop :=
  ∀ s : State, s.target = .gateArrayAlone → s.params.gaOrder = .dividerFirst →
    ∃ g : GateArray,
      exec .gaHsf s = .next { s with ga := g, host := { s.host with answer := .nothing } } ∧
      (s.ga.vcd ≠ .one →
        g.vcd = (if s.ga.vcd = .two then .one else s.ga.vcd) ∧
        (s.ga.div.toNat = 51 → g.div = 0#6 ∧ g.irq = true) ∧
        (s.ga.div.toNat = 63 → g.div = 0#6 ∧ g.irq = s.ga.irq) ∧
        (s.ga.div.toNat ≠ 51 → s.ga.div.toNat ≠ 63 →
          g.div.toNat = s.ga.div.toNat + 1 ∧ g.irq = s.ga.irq)) ∧
      (s.ga.vcd = .one →
        g.vcd = .disarmed ∧ g.div = 0#6 ∧
        (s.ga.div.toNat ≤ 30 ∨ s.ga.div.toNat = 51 ∨ s.ga.div.toNat = 63 → g.irq = true) ∧
        ((31 ≤ s.ga.div.toNat ∧ s.ga.div.toNat ≤ 50) ∨
          (52 ≤ s.ga.div.toNat ∧ s.ga.div.toNat ≤ 62) → g.irq = s.ga.irq))

/-- The alternative order of R102, `GA_ORDER = countdown_first` (decision D9): where the correction fires
`DIV` ends at 1 and the interrupt is decided on the `DIV` before the event; elsewhere nothing differs. -/
def Obligations.GaHsfInTheOtherOrder : Prop :=
  ∀ s : State, s.target = .gateArrayAlone → s.params.gaOrder = .countdownFirst →
    ∃ g : GateArray,
      exec .gaHsf s = .next { s with ga := g, host := { s.host with answer := .nothing } } ∧
      (s.ga.vcd = .one → g.vcd = .disarmed ∧ g.div = 1#6 ∧
        (s.ga.div.toNat < 32 → g.irq = true) ∧ (32 ≤ s.ga.div.toNat → g.irq = s.ga.irq)) ∧
      (s.ga.vcd ≠ .one → g = s.ga.hsyncFall .dividerFirst)

/-- R109, vector (a): with no vertical-sync start between them, the interrupt is raised on every 52nd hsync
fall counted from `DIV` 0, in either order of GA_HSF's parts. -/
def Obligations.InterruptOnEvery52ndFall : Prop :=
  ∀ (o : GaOrder) (g : GateArray) (n : Nat), g.div = 0#6 → g.vcd = .disarmed →
    (g.falls o n).div.toNat = n % 52 ∧ (g.falls o n).vcd = .disarmed ∧
    (0 < n → ((g.falls o n).irq = true ↔ n % 52 = 0))

/-- R108 (d), R109: after a vertical-sync start the countdown takes two hsync falls. On the second `DIV` is
forced to 0 and the countdown disarmed, and the interrupt is raised exactly when the divider twice
incremented is below 32 or the period of 52 fell on one of the two (`GA_ORDER = divider_first`, D9). -/
def Obligations.VsyncCorrectionOnTheSecondFall : Prop :=
  ∀ g : GateArray, g.div.toNat ≤ 51 →
    (g.vsyncStart.falls .dividerFirst 1).vcd = .one ∧
    (g.vsyncStart.falls .dividerFirst 1).div.toNat = (g.div.toNat + 1) % 52 ∧
    (g.vsyncStart.falls .dividerFirst 2).vcd = .disarmed ∧
    (g.vsyncStart.falls .dividerFirst 2).div = 0#6 ∧
    ((g.vsyncStart.falls .dividerFirst 2).irq = true ↔ g.div.toNat ≤ 29 ∨ 50 ≤ g.div.toNat)

/-! ## TICK -/

/-- TICK (R120), whole: every counter, the Gate Array's events in their order, and what is unchanged. Only
`VCC` depends on `VCC_WRAP_SCOPE`: here `row`, the default that R120 shows. -/
def Obligations.TickRunsTheSixSteps : Prop :=
  ∀ s : State, s.target = .composed →
    let h := s.crtc.hcc.toNat + 1
    let l := s.crtc.vlc.toNat + 1
    let c := s.crtc.vcc.toNat + 1
    let lineEnd : Bool := decide (h > s.regs[0].toNat)
    let rowEnd : Bool := lineEnd && decide (l > s.regs[9].toNat)
    let vsyncStart : Bool :=
      rowEnd && decide (c = s.regs[7].toNat) && decide (s.crtc.vsc.toNat ≤ 1)
    let g : GateArray := { s.ga with irq := false }
    let fallen : GateArray := if s.crtc.hsc = 1#8 then g.hsyncFall s.params.gaOrder else g
    ∃ t, exec .tick s = .next t ∧
      t.crtc.nops = s.crtc.nops + 1 ∧
      t.crtc.hcc.toNat = (if lineEnd then 0 else h) ∧
      t.crtc.hsc.toNat =
        (if h = s.regs[2].toNat then s.params.hsw.pred.val + 1 else s.crtc.hsc.toNat - 1) ∧
      t.crtc.vlc.toNat = (if rowEnd then 0 else if lineEnd then l else s.crtc.vlc.toNat) ∧
      (s.params.vccWrapScope = .row → t.crtc.vcc.toNat =
        (if rowEnd then (if c > s.regs[4].toNat then 0 else c) else s.crtc.vcc.toNat)) ∧
      t.crtc.vsc.toNat =
        (if vsyncStart then s.params.vsw.pred.val + 1
         else if lineEnd then s.crtc.vsc.toNat - 1 else s.crtc.vsc.toNat) ∧
      t.ga = (if vsyncStart then { fallen with vcd := .two } else fallen) ∧
      t.regs = s.regs ∧ t.fault = s.fault ∧ t.params = s.params ∧ t.target = s.target ∧
      t.host = { s.host with answer := .nothing }

/-- `VCC` after a TICK under both scopes of the vertical-total test (R131, decision D10). At a row end both
make the test; at a scanline end inside a row `row` keeps the count, and `line` zeroes a count above R4 while
`VLC` keeps counting; elsewhere `VCC` stays. -/
def Obligations.VerticalTotalTestInBothScopes : Prop :=
  ∀ s : State, s.target = .composed →
    ∃ t, exec .tick s = .next t ∧
      (s.crtc.hcc.toNat + 1 > s.regs[0].toNat → s.crtc.vlc.toNat + 1 > s.regs[9].toNat →
        t.crtc.vcc.toNat =
          (if s.crtc.vcc.toNat + 1 > s.regs[4].toNat then 0 else s.crtc.vcc.toNat + 1)) ∧
      (s.crtc.hcc.toNat + 1 > s.regs[0].toNat → s.crtc.vlc.toNat + 1 ≤ s.regs[9].toNat →
        t.crtc.vlc.toNat = s.crtc.vlc.toNat + 1 ∧
        (s.params.vccWrapScope = .row → t.crtc.vcc = s.crtc.vcc) ∧
        (s.params.vccWrapScope = .line → t.crtc.vcc.toNat =
          (if s.crtc.vcc.toNat > s.regs[4].toNat then 0 else s.crtc.vcc.toNat))) ∧
      (s.crtc.hcc.toNat + 1 ≤ s.regs[0].toNat → t.crtc.vcc = s.crtc.vcc)

/-- `NOPS` grows by exactly 1 per TICK, unconditionally, and by nothing else (R122); RESET zeroes it (R40). That
`exec` of RUNVS adds exactly 1, since a step of RUNVS is one TICK, is the model's choice, log 7. -/
def Obligations.NopsCountsTicks : Prop :=
  (∀ s : State, s.target = .composed → ∃ t, exec .tick s = .next t ∧ t.crtc.nops = s.crtc.nops + 1) ∧
  (∀ (s t : State) (i : Instr), s.target = .composed → exec i s = .next t →
    t.crtc.nops = (if i = .tick ∨ i = .runvs then s.crtc.nops + 1
      else if i = .reset then 0 else s.crtc.nops)) ∧
  (∀ s t : State, step s = .next t →
    t.crtc.nops = s.crtc.nops ∨ t.crtc.nops = s.crtc.nops + 1 ∨ t.crtc.nops = 0)

/-- R124: a non-zero `HSC` is counted down by a TICK (and then armed, if `h == R[2]`), and GA_HSF is called
exactly in a TICK that began with `HSC == 1`, once. The countdown is compared in a TICK that ends no
scanline, where no GA_VSS can follow. -/
def Obligations.HsyncFallNeedsHscOne : Prop :=
  ∀ s : State, s.target = .composed →
    ∃ t, exec .tick s = .next t ∧
      (s.crtc.hcc.toNat + 1 ≠ s.regs[2].toNat → t.crtc.hsc.toNat = s.crtc.hsc.toNat - 1) ∧
      (s.crtc.hsc ≠ 1#8 → t.ga.div = s.ga.div ∧ t.ga.irq = false ∧
        (s.crtc.hcc.toNat + 1 ≤ s.regs[0].toNat → t.ga.vcd = s.ga.vcd)) ∧
      (s.crtc.hsc = 1#8 →
        t.ga.div = (s.ga.advance.hsyncFall s.params.gaOrder).div ∧
        t.ga.irq = (s.ga.advance.hsyncFall s.params.gaOrder).irq ∧
        (s.crtc.hcc.toNat + 1 ≤ s.regs[0].toNat →
          t.ga.vcd = (s.ga.advance.hsyncFall s.params.gaOrder).vcd))

/-- R196: the interrupt has two causes, both in the hsync fall of a TICK: the divider reaches 52, or the
correction finds the incremented divider below 32 (`GA_ORDER = divider_first`). Nothing else raises it. -/
def Obligations.InterruptHasOnlyItsTwoCauses : Prop :=
  ∀ s t : State, s.target = .composed → s.params.gaOrder = .dividerFirst → step s = .next t →
    (t.crtc.nops = s.crtc.nops + 1 →
      (t.ga.irq = true ↔ s.crtc.hsc = 1#8 ∧ (s.ga.div.toNat = 51 ∨
        (s.ga.vcd = .one ∧ (s.ga.div.toNat + 1) % 64 < 32)))) ∧
    (t.crtc.nops ≠ s.crtc.nops + 1 → t.ga.irq = true → s.ga.irq = true)

/-- R138: a SETREG that lowers R0 below `HCC` changes no counter, and the next TICK ends the scanline. -/
def Obligations.LoweredBoundEndsTheScanline : Prop :=
  ∀ (s : State) (v : Byte), s.target = .composed → v.toNat < s.crtc.hcc.toNat →
    ∃ t u, exec (.setreg 0 (v.toNat : Int)) s = .next t ∧ t.crtc = s.crtc ∧
      exec .tick t = .next u ∧ u.crtc.hcc = 0#8 ∧
      u.crtc.vlc.toNat =
        (if s.crtc.vlc.toNat + 1 > s.regs[9].toNat then 0 else s.crtc.vlc.toNat + 1)

/-- R146: with every register 0 and every counter but `NOPS` 0, a TICK moves only `NOPS` and clears `IRQ`,
and the border is on. -/
def Obligations.AllZeroConfigurationStandsStill : Prop :=
  ∀ s : State, s.target = .composed → (∀ j : RegIndex, s.regs[j] = 0#8) → s.atOrigin →
    s.crtc.hsc = 0#8 → s.crtc.vsc = 0#8 →
    exec .tick s = .next { s with
      crtc := { s.crtc with nops := s.crtc.nops + 1 }
      ga := { s.ga with irq := false }
      host := { s.host with answer := .nothing } } ∧
    exec .qborder s = .next { s with host := { s.host with answer := .bit true } }

/-! ## Whole-machine rules -/

/-- R194 (decision D14; that the machine goes on is log 8): `FAULT` is cleared by nothing, and set only by a
step whose operation failed. -/
def Obligations.FaultIsStickyAndMarksFailures : Prop :=
  ∀ s t : State, step s = .next t →
    (s.fault = true → t.fault = true) ∧
    (t.fault = true → s.fault = true ∨ ∃ f, t.host.answer = .failed f)

/-- R50: the parameters are not state; no step changes them, nor which unit takes the words (log 9). -/
def Obligations.ParametersAndUnitAreConstant : Prop :=
  ∀ s t : State, step s = .next t → t.params = s.params ∧ t.target = s.target

/-- 10_state.md section 2: only TICK (and RUNVS, which is made of TICKs) and RESET write the counters; on
the composed block the Gate Array is written by the same three and by nothing else. -/
def Obligations.OnlyTicksAndResetMoveTheCounters : Prop :=
  ∀ (s t : State) (i : Instr), exec i s = .next t → i ≠ .tick → i ≠ .runvs → i ≠ .reset →
    t.crtc = s.crtc ∧ (s.target = .composed → t.ga = s.ga)

/-- R86: the stand-alone Gate Array unit has the state `DIV`, `IRQ`, `VCD` only; no step of it touches the
register bank or the CRTC's counters. -/
def Obligations.StandAloneUnitHasOnlyGateArrayState : Prop :=
  ∀ s t : State, s.target = .gateArrayAlone → step s = .next t →
    t.regs = s.regs ∧ t.crtc = s.crtc

/-- The invariant holds at power-on, whatever the parameters and the registers hold. -/
def Obligations.InvariantAtPowerOn : Prop :=
  (∀ (p : Params) (initReg : Vector Byte 14), (State.powerOn p initReg).Inv) ∧ State.reset.Inv

/-- Every step keeps the invariant: `HSC <= HSW` and `VSC <= VSW` (R137), `DIV` in 0 to 51 and `VCD` not 0
(R108), a failure handed to the host has set `FAULT` (R191, R193), and RUNVS's second loop runs only
without a vertical sync (R160). -/
def Obligations.InvariantKeptByEveryStep : Prop :=
  ∀ s t : State, s.Inv → step s = .next t → t.Inv

/-- R137: `HCC <= R0`, `VLC <= R9` and `VCC <= R4` are kept by every step that lowers none of the three
registers, with either `VCC_WRAP_SCOPE`. -/
def Obligations.BoundsKeptByEveryStep : Prop :=
  ∀ s t : State, s.withinBounds → step s = .next t →
    s.regs[0].toNat ≤ t.regs[0].toNat → s.regs[9].toNat ≤ t.regs[9].toNat →
    s.regs[4].toNat ≤ t.regs[4].toNat → t.withinBounds

/-! ## Frames, and RUNVS -/

/-- R136: with the registers constant, the position after `n` TICKs from the origin: a scanline is R0 + 1
ticks, a row R9 + 1 scanlines, a frame R4 + 1 rows, so `(VCC, VLC, HCC)` has the period of a frame. -/
def Obligations.PositionAfterTicksIsThePhase : Prop :=
  ∀ (s : State) (n : Nat), s.target = .composed → s.atOrigin →
    ∃ t, TicksTo n s t ∧ t.regs = s.regs ∧ t.crtc.nops = s.crtc.nops + n ∧
      t.crtc.hcc.toNat = n % (s.regs[0].toNat + 1) ∧
      t.crtc.vlc.toNat = n / (s.regs[0].toNat + 1) % (s.regs[9].toNat + 1) ∧
      t.crtc.vcc.toNat =
        n / ((s.regs[0].toNat + 1) * (s.regs[9].toNat + 1)) % (s.regs[4].toNat + 1)

/-- R136: from the origin with no vertical sync active and 1 <= R7 <= R4 + 1, the first vertical-sync start
is tick (R0 + 1)(R9 + 1) R7. -/
def Obligations.FirstVsyncStartTick : Prop :=
  ∀ s : State, s.target = .composed → s.atOrigin → s.crtc.vsc = 0#8 →
    1 ≤ s.regs[7].toNat → s.regs[7].toNat ≤ s.regs[4].toNat + 1 →
    (∀ n, n < (s.regs[0].toNat + 1) * (s.regs[9].toNat + 1) * s.regs[7].toNat →
      ∃ t, TicksTo n s t ∧ t.crtc.vsc = 0#8) ∧
    ∃ t, TicksTo ((s.regs[0].toNat + 1) * (s.regs[9].toNat + 1) * s.regs[7].toNat) s t ∧
      t.crtc.vsc.toNat = s.params.vsw.pred.val + 1 ∧ t.ga.vcd = .two ∧
      t.crtc.hcc = 0#8 ∧ t.crtc.vlc = 0#8 ∧
      t.crtc.vcc.toNat = (if s.regs[7].toNat = s.regs[4].toNat + 1 then 0 else s.regs[7].toNat)

/-- R160: RUNVS begins with a TICK: of its first loop if a vertical sync is active, else of its second,
which is over if that TICK starts one. It returns nothing of its own (log 7). -/
def Obligations.RunvsBeginsWithATick : Prop :=
  ∀ s : State, s.target = .composed →
    ∃ t, exec .tick s = .next t ∧
      exec .runvs s = .next (t.withBusy
        (if s.crtc.vsc ≠ 0#8 then some .runvsLeave
         else if t.crtc.vsc = 0#8 then some .runvsAwait else none))

/-- R160: RUNVS returns right after the tick that started a vertical sync: `VSC == VSW`, `VCD == 2`,
`HCC == 0`, `VLC == 0`, and `VCC == R7`, or 0 where R7 exceeds R4. That it is over in the step of that TICK is
the model's choice, log 7. -/
def Obligations.RunvsReturnsAtAVsyncStart : Prop :=
  ∀ s t : State, s.target = .composed →
    (s.host.busy = some .runvsLeave ∨ (s.host.busy = some .runvsAwait ∧ s.crtc.vsc = 0#8)) →
    step s = .next t → t.host.busy = none →
    t.crtc.vsc.toNat = s.params.vsw.pred.val + 1 ∧ t.ga.vcd = .two ∧
    t.crtc.hcc = 0#8 ∧ t.crtc.vlc = 0#8 ∧ t.crtc.nops = s.crtc.nops + 1 ∧
    t.crtc.vcc.toNat = (if s.regs[7].toNat > s.regs[4].toNat then 0 else s.regs[7].toNat)

/-- R136, R160: RUNVS issued at the origin with no vertical sync active and 1 <= R7 <= R4 + 1 ends after
exactly (R0 + 1)(R9 + 1) R7 TICKs, at a vertical-sync start, and not before. That each TICK of RUNVS is one
step, and that it is over in the step of its last TICK, is the model's choice, log 7. -/
def Obligations.RunvsFromTheOriginEnds : Prop :=
  ∀ (s : State) (rest : List HostItem), s.target = .composed → s.host.busy = none →
    s.host.program = .word 0x7000#16 :: rest → s.atOrigin → s.crtc.vsc = 0#8 →
    1 ≤ s.regs[7].toNat → s.regs[7].toNat ≤ s.regs[4].toNat + 1 →
    (∀ n, 1 ≤ n → n < (s.regs[0].toNat + 1) * (s.regs[9].toNat + 1) * s.regs[7].toNat →
      ∃ t, Host.Core.run Sys2Proof.core n s = .next t ∧ t.host.busy = some .runvsAwait) ∧
    ∃ t, Host.Core.run Sys2Proof.core
        ((s.regs[0].toNat + 1) * (s.regs[9].toNat + 1) * s.regs[7].toNat) s = .next t ∧
      t.host.busy = none ∧ t.host.program = rest ∧ t.host.answer = .nothing ∧
      t.crtc.vsc.toNat = s.params.vsw.pred.val + 1 ∧ t.ga.vcd = .two ∧ t.regs = s.regs ∧
      t.crtc.nops =
        s.crtc.nops + (s.regs[0].toNat + 1) * (s.regs[9].toNat + 1) * s.regs[7].toNat

/-- R134, R161: with R7 = 0 or R7 > R4 + 1 and the counters in bounds, the second loop of RUNVS never ends:
after any number of steps it is still in it, with no vertical sync. That `NOPS` grows by 1 per step, a step
of the loop being one TICK, is the model's choice, log 7. -/
def Obligations.RunvsHangsWithoutATrigger : Prop :=
  ∀ (s : State) (n : Nat), s.target = .composed → s.host.busy = some .runvsAwait →
    s.crtc.vsc = 0#8 → s.withinBounds →
    (s.regs[7].toNat = 0 ∨ s.regs[7].toNat > s.regs[4].toNat + 1) →
    ∃ t, Host.Core.run Sys2Proof.core n s = .next t ∧ t.host.busy = some .runvsAwait ∧
      t.crtc.vsc = 0#8 ∧ t.crtc.nops = s.crtc.nops + n

/-- R135 (c): with 1 <= R2 <= R0 + 1 and `HSW > R0 + 1`, from an arming tick on `HSC` is re-armed before it
reaches 0: `HSYNC` stays 1, no GA_HSF is called and no interrupt is raised. -/
def Obligations.TooWideAnHsyncNeverFalls : Prop :=
  ∀ (s : State) (n : Nat), s.target = .composed →
    1 ≤ s.regs[2].toNat → s.regs[2].toNat ≤ s.regs[0].toNat + 1 →
    s.regs[0].toNat + 1 < s.params.hsw.pred.val + 1 →
    s.crtc.hsc = s.params.hsw.toByte → s.crtc.hcc.toNat = s.regs[2].toNat % (s.regs[0].toNat + 1) →
    ∃ t, TicksTo n s t ∧ t.crtc.hsc ≠ 0#8 ∧ t.ga.div = s.ga.div ∧ (1 ≤ n → t.ga.irq = false)

/-! ## The host's pseudo-operations -/

/-- R89 (decision D2): the fixed expansions of TICKS and FORCE, and WAITINT as one item of the host (log
12). -/
def Obligations.PseudoOperationsExpand : Prop :=
  (∀ n, (SourceLine.ticks n).expand = List.replicate n (.word 0x0000#16)) ∧
  (∀ (i : RegIndex) (v : Byte), (SourceLine.force (i.val : Int) (v.toNat : Int)).expand =
    [.word (BitVec.ofNat 16 (0x1000 + 256 * i.val + v.toNat)), .word 0x2000#16]) ∧
  SourceLine.waitInt.expand = [.waitInt]
end

