-- ==== Sys2Proof/Laws/GateArray.lean ====
section
/-! SUPPORT. Laws/GateArray.lean: what each event of the Gate Array can do (40_gate_array.md). -/

namespace Sys2Proof.Machine

variable (g : GateArray)

@[simp] theorem GateArray.advance_div : g.advance.div = g.div := by rfl
@[simp] theorem GateArray.advance_irq : g.advance.irq = false := by rfl
@[simp] theorem GateArray.advance_vcd : g.advance.vcd = g.vcd := by rfl
@[simp] theorem GateArray.vsyncStart_div : g.vsyncStart.div = g.div := by rfl
@[simp] theorem GateArray.vsyncStart_irq : g.vsyncStart.irq = g.irq := by rfl
@[simp] theorem GateArray.vsyncStart_vcd : g.vsyncStart.vcd = .two := by rfl

/-- Part 1 of GA_HSF on each part of the state. -/
theorem GateArray.dividerPart_eq : g.dividerPart =
    { div := if g.div = 51#6 then 0#6 else g.div + 1#6
      irq := g.irq || decide (g.div = 51#6)
      vcd := g.vcd } := by
  have e : g.div + 1#6 = divPeriod ↔ g.div = 51#6 := by unfold divPeriod; bv_omega
  unfold GateArray.dividerPart
  by_cases h : g.div = 51#6
  · rw [if_pos (e.mpr h), if_pos h]; simp [h]
  · rw [if_neg (fun k => h (e.mp k)), if_neg h]; simp [h]

/-- Part 2 of GA_HSF when the countdown is not at 1. -/
theorem GateArray.countdownPart_of_ne_one (h : g.vcd ≠ .one) : g.countdownPart =
    { g with vcd := if g.vcd = .two then .one else g.vcd } := by
  cases g with
  | mk d i v => cases v <;> first | rfl | exact absurd rfl h

/-- Part 2 of GA_HSF at 1: the correction. `DIV` is 0 and the countdown is disarmed either way. -/
theorem GateArray.countdownPart_of_one (h : g.vcd = .one) : g.countdownPart =
    { div := 0#6, irq := g.irq || decide (g.div < divSplit), vcd := .disarmed } := by
  cases g with
  | mk d i v =>
    subst h
    by_cases k : divSplit ≤ d
    · have k' : ¬ d < divSplit := BitVec.not_lt.mpr k
      simp [GateArray.countdownPart, k, k']
    · have k' : d < divSplit := BitVec.not_le.mp k
      simp [GateArray.countdownPart, k, k']

/-- GA_HSF never clears `IRQ` (R101). -/
theorem GateArray.hsyncFall_irq (o : GaOrder) (h : g.irq = true) : (g.hsyncFall o).irq = true := by
  have d : ∀ k : GateArray, k.irq = true → k.dividerPart.irq = true := by
    intro k hk; simp [k.dividerPart_eq, hk]
  have c : ∀ k : GateArray, k.irq = true → k.countdownPart.irq = true := by
    intro k hk
    by_cases v : k.vcd = .one
    · simp [k.countdownPart_of_one v, hk]
    · simp [k.countdownPart_of_ne_one v, hk]
  cases o
  · exact c _ (d _ h)
  · exact d _ (c _ h)

end Sys2Proof.Machine
end

