-- ==== Sys2Proof/Laws/PerInstr.lean ====
section
/-! SUPPORT. Laws/PerInstr.lean: statements about each operation as syntax, one lemma per constructor. The family OpcodeField says
that the four top bits of an operation's word are its code in 30_encoding.md R82, whatever its operands. -/

namespace Sys2Proof.Laws.OpcodeField

/-- The field `op` of the encoded word is the operation's code. -/
def Statement (i : Instr) : Prop := opField (encode i) = i.opcode

/-- The field `op` of a word put together from three fields. -/
theorem opField_assembleFields (op idx : BitVec 4) (val : Byte) :
    opField (assembleFields op idx val) = op := by
  apply BitVec.eq_of_getLsbD_eq
  intro k hk
  simp only [opField, assembleFields, BitVec.getLsbD_extractLsb', BitVec.getLsbD_append]
  have h1 : ¬ (12 + k < 8) := by omega
  have h2 : ¬ (12 + k - 8 < 4) := by omega
  have h3 : 12 + k - 8 - 4 = k := by omega
  simp [hk, h1, h2, h3]

theorem tick : Statement .tick := opField_assembleFields _ _ _
theorem setreg (index value : Int) : Statement (.setreg index value) := opField_assembleFields _ _ _
theorem reset : Statement .reset := opField_assembleFields _ _ _
theorem qhsync : Statement .qhsync := opField_assembleFields _ _ _
theorem qvsync : Statement .qvsync := opField_assembleFields _ _ _
theorem qborder : Statement .qborder := opField_assembleFields _ _ _
theorem qint : Statement .qint := opField_assembleFields _ _ _
theorem runvs : Statement .runvs := opField_assembleFields _ _ _
theorem gaAdv : Statement .gaAdv := opField_assembleFields _ _ _
theorem gaHsf : Statement .gaHsf := opField_assembleFields _ _ _
theorem gaVss : Statement .gaVss := opField_assembleFields _ _ _

end Sys2Proof.Laws.OpcodeField
end

