-- ==== Sys2Proof/Laws/State.lean ====
section
/-! SUPPORT. Laws/State.lean: one lemma per part of the state per update, so that no proof unfolds a record update.
Each is true by rfl and proved `by rfl`, so that simp carries it into the instance of a `Decidable` condition too. -/

namespace Sys2Proof.Machine

variable (s : State)

/-! ### writeReg -/

@[simp] theorem State.writeReg_regs (i : RegIndex) (v : Byte) : (s.writeReg i v).regs = s.regs.set i v := by rfl
@[simp] theorem State.writeReg_crtc (i : RegIndex) (v : Byte) : (s.writeReg i v).crtc = s.crtc := by rfl
@[simp] theorem State.writeReg_ga (i : RegIndex) (v : Byte) : (s.writeReg i v).ga = s.ga := by rfl
@[simp] theorem State.writeReg_fault (i : RegIndex) (v : Byte) : (s.writeReg i v).fault = s.fault := by rfl
@[simp] theorem State.writeReg_params (i : RegIndex) (v : Byte) : (s.writeReg i v).params = s.params := by rfl
@[simp] theorem State.writeReg_target (i : RegIndex) (v : Byte) : (s.writeReg i v).target = s.target := by rfl
@[simp] theorem State.writeReg_program (i : RegIndex) (v : Byte) : (s.writeReg i v).host.program = s.host.program := by rfl
@[simp] theorem State.writeReg_busy (i : RegIndex) (v : Byte) : (s.writeReg i v).host.busy = s.host.busy := by rfl
@[simp] theorem State.writeReg_answer (i : RegIndex) (v : Byte) : (s.writeReg i v).host.answer = s.host.answer := by rfl

/-! ### withCrtc -/

@[simp] theorem State.withCrtc_regs (c : Crtc) : (s.withCrtc c).regs = s.regs := by rfl
@[simp] theorem State.withCrtc_crtc (c : Crtc) : (s.withCrtc c).crtc = c := by rfl
@[simp] theorem State.withCrtc_ga (c : Crtc) : (s.withCrtc c).ga = s.ga := by rfl
@[simp] theorem State.withCrtc_fault (c : Crtc) : (s.withCrtc c).fault = s.fault := by rfl
@[simp] theorem State.withCrtc_params (c : Crtc) : (s.withCrtc c).params = s.params := by rfl
@[simp] theorem State.withCrtc_target (c : Crtc) : (s.withCrtc c).target = s.target := by rfl
@[simp] theorem State.withCrtc_program (c : Crtc) : (s.withCrtc c).host.program = s.host.program := by rfl
@[simp] theorem State.withCrtc_busy (c : Crtc) : (s.withCrtc c).host.busy = s.host.busy := by rfl
@[simp] theorem State.withCrtc_answer (c : Crtc) : (s.withCrtc c).host.answer = s.host.answer := by rfl
@[simp] theorem State.withCrtc_reg (c : Crtc) (j : RegIndex) : (s.withCrtc c).reg j = s.reg j := by rfl

/-! ### withGa -/

@[simp] theorem State.withGa_regs (g : GateArray) : (s.withGa g).regs = s.regs := by rfl
@[simp] theorem State.withGa_crtc (g : GateArray) : (s.withGa g).crtc = s.crtc := by rfl
@[simp] theorem State.withGa_ga (g : GateArray) : (s.withGa g).ga = g := by rfl
@[simp] theorem State.withGa_fault (g : GateArray) : (s.withGa g).fault = s.fault := by rfl
@[simp] theorem State.withGa_params (g : GateArray) : (s.withGa g).params = s.params := by rfl
@[simp] theorem State.withGa_target (g : GateArray) : (s.withGa g).target = s.target := by rfl
@[simp] theorem State.withGa_program (g : GateArray) : (s.withGa g).host.program = s.host.program := by rfl
@[simp] theorem State.withGa_busy (g : GateArray) : (s.withGa g).host.busy = s.host.busy := by rfl
@[simp] theorem State.withGa_answer (g : GateArray) : (s.withGa g).host.answer = s.host.answer := by rfl
@[simp] theorem State.withGa_reg (g : GateArray) (j : RegIndex) : (s.withGa g).reg j = s.reg j := by rfl

/-! ### withAnswer -/

@[simp] theorem State.withAnswer_regs (a : Answer) : (s.withAnswer a).regs = s.regs := by rfl
@[simp] theorem State.withAnswer_crtc (a : Answer) : (s.withAnswer a).crtc = s.crtc := by rfl
@[simp] theorem State.withAnswer_ga (a : Answer) : (s.withAnswer a).ga = s.ga := by rfl
@[simp] theorem State.withAnswer_fault (a : Answer) : (s.withAnswer a).fault = s.fault := by rfl
@[simp] theorem State.withAnswer_params (a : Answer) : (s.withAnswer a).params = s.params := by rfl
@[simp] theorem State.withAnswer_target (a : Answer) : (s.withAnswer a).target = s.target := by rfl
@[simp] theorem State.withAnswer_program (a : Answer) : (s.withAnswer a).host.program = s.host.program := by rfl
@[simp] theorem State.withAnswer_busy (a : Answer) : (s.withAnswer a).host.busy = s.host.busy := by rfl
@[simp] theorem State.withAnswer_answer (a : Answer) : (s.withAnswer a).host.answer = a := by rfl
@[simp] theorem State.withAnswer_reg (a : Answer) (j : RegIndex) : (s.withAnswer a).reg j = s.reg j := by rfl

/-! ### withBusy -/

@[simp] theorem State.withBusy_regs (b : Option Procedure) : (s.withBusy b).regs = s.regs := by rfl
@[simp] theorem State.withBusy_crtc (b : Option Procedure) : (s.withBusy b).crtc = s.crtc := by rfl
@[simp] theorem State.withBusy_ga (b : Option Procedure) : (s.withBusy b).ga = s.ga := by rfl
@[simp] theorem State.withBusy_fault (b : Option Procedure) : (s.withBusy b).fault = s.fault := by rfl
@[simp] theorem State.withBusy_params (b : Option Procedure) : (s.withBusy b).params = s.params := by rfl
@[simp] theorem State.withBusy_target (b : Option Procedure) : (s.withBusy b).target = s.target := by rfl
@[simp] theorem State.withBusy_program (b : Option Procedure) : (s.withBusy b).host.program = s.host.program := by rfl
@[simp] theorem State.withBusy_busy (b : Option Procedure) : (s.withBusy b).host.busy = b := by rfl
@[simp] theorem State.withBusy_answer (b : Option Procedure) : (s.withBusy b).host.answer = s.host.answer := by rfl
@[simp] theorem State.withBusy_reg (b : Option Procedure) (j : RegIndex) : (s.withBusy b).reg j = s.reg j := by rfl

/-! ### withProgram -/

@[simp] theorem State.withProgram_regs (p : List HostItem) : (s.withProgram p).regs = s.regs := by rfl
@[simp] theorem State.withProgram_crtc (p : List HostItem) : (s.withProgram p).crtc = s.crtc := by rfl
@[simp] theorem State.withProgram_ga (p : List HostItem) : (s.withProgram p).ga = s.ga := by rfl
@[simp] theorem State.withProgram_fault (p : List HostItem) : (s.withProgram p).fault = s.fault := by rfl
@[simp] theorem State.withProgram_params (p : List HostItem) : (s.withProgram p).params = s.params := by rfl
@[simp] theorem State.withProgram_target (p : List HostItem) : (s.withProgram p).target = s.target := by rfl
@[simp] theorem State.withProgram_program (p : List HostItem) : (s.withProgram p).host.program = p := by rfl
@[simp] theorem State.withProgram_busy (p : List HostItem) : (s.withProgram p).host.busy = s.host.busy := by rfl
@[simp] theorem State.withProgram_answer (p : List HostItem) : (s.withProgram p).host.answer = s.host.answer := by rfl
@[simp] theorem State.withProgram_reg (p : List HostItem) (j : RegIndex) : (s.withProgram p).reg j = s.reg j := by rfl

/-! ### withTarget -/

@[simp] theorem State.withTarget_regs (t : Target) : (s.withTarget t).regs = s.regs := by rfl
@[simp] theorem State.withTarget_crtc (t : Target) : (s.withTarget t).crtc = s.crtc := by rfl
@[simp] theorem State.withTarget_ga (t : Target) : (s.withTarget t).ga = s.ga := by rfl
@[simp] theorem State.withTarget_fault (t : Target) : (s.withTarget t).fault = s.fault := by rfl
@[simp] theorem State.withTarget_params (t : Target) : (s.withTarget t).params = s.params := by rfl
@[simp] theorem State.withTarget_target (t : Target) : (s.withTarget t).target = t := by rfl
@[simp] theorem State.withTarget_program (t : Target) : (s.withTarget t).host.program = s.host.program := by rfl
@[simp] theorem State.withTarget_busy (t : Target) : (s.withTarget t).host.busy = s.host.busy := by rfl
@[simp] theorem State.withTarget_answer (t : Target) : (s.withTarget t).host.answer = s.host.answer := by rfl
@[simp] theorem State.withTarget_reg (t : Target) (j : RegIndex) : (s.withTarget t).reg j = s.reg j := by rfl

/-! ### raise -/

@[simp] theorem State.raise_regs (f : Failure) : (s.raise f).regs = s.regs := by rfl
@[simp] theorem State.raise_crtc (f : Failure) : (s.raise f).crtc = s.crtc := by rfl
@[simp] theorem State.raise_ga (f : Failure) : (s.raise f).ga = s.ga := by rfl
@[simp] theorem State.raise_fault (f : Failure) : (s.raise f).fault = true := by rfl
@[simp] theorem State.raise_params (f : Failure) : (s.raise f).params = s.params := by rfl
@[simp] theorem State.raise_target (f : Failure) : (s.raise f).target = s.target := by rfl
@[simp] theorem State.raise_program (f : Failure) : (s.raise f).host.program = s.host.program := by rfl
@[simp] theorem State.raise_busy (f : Failure) : (s.raise f).host.busy = s.host.busy := by rfl
@[simp] theorem State.raise_answer (f : Failure) : (s.raise f).host.answer = .failed f := by rfl
@[simp] theorem State.raise_reg (f : Failure) (j : RegIndex) : (s.raise f).reg j = s.reg j := by rfl

/-! ### Reading the register bank -/

theorem State.reg_eq_getElem (i : RegIndex) : s.reg i = s.regs[i] := by rfl
theorem State.reg_0 : s.reg 0 = s.regs[0] := by rfl
theorem State.reg_1 : s.reg 1 = s.regs[1] := by rfl
theorem State.reg_2 : s.reg 2 = s.regs[2] := by rfl
theorem State.reg_4 : s.reg 4 = s.regs[4] := by rfl
theorem State.reg_6 : s.reg 6 = s.regs[6] := by rfl
theorem State.reg_7 : s.reg 7 = s.regs[7] := by rfl
theorem State.reg_9 : s.reg 9 = s.regs[9] := by rfl

/-- Read after write: the register written holds the value, every other one what it held. -/
@[simp] theorem State.writeReg_reg (i j : RegIndex) (v : Byte) :
    (s.writeReg i v).reg j = if i = j then v else s.reg j := by
  simp [State.writeReg, State.reg, Vector.getElem_set, Fin.ext_iff]

/-- Writing a register twice keeps the second value. -/
theorem State.writeReg_writeReg (i : RegIndex) (v w : Byte) :
    (s.writeReg i v).writeReg i w = s.writeReg i w := by
  simp [State.writeReg]

/-! ### Updates of different parts commute, and the later of two updates of one part wins -/

@[simp] theorem State.withAnswer_withAnswer (a b : Answer) :
    (s.withAnswer a).withAnswer b = s.withAnswer b := by rfl
@[simp] theorem State.withBusy_withBusy (a b : Option Procedure) :
    (s.withBusy a).withBusy b = s.withBusy b := by rfl
@[simp] theorem State.withCrtc_withCrtc (a b : Crtc) : (s.withCrtc a).withCrtc b = s.withCrtc b := by rfl
@[simp] theorem State.withGa_withGa (a b : GateArray) : (s.withGa a).withGa b = s.withGa b := by rfl
theorem State.withGa_withCrtc (g : GateArray) (c : Crtc) :
    (s.withGa g).withCrtc c = (s.withCrtc c).withGa g := by rfl
theorem State.withBusy_withAnswer (b : Option Procedure) (a : Answer) :
    (s.withBusy b).withAnswer a = (s.withAnswer a).withBusy b := by rfl

end Sys2Proof.Machine
end

