-- ==== Sys2Proof/Laws/Timing.lean ====
section
/-! SUPPORT. Laws/Timing.lean: what each of the six steps of TICK can change, said once, and the parts of the state after a
whole TICK. Proofs about TICK cite these and unfold none of its steps. -/

namespace Sys2Proof.Machine

variable (s : State)

/-- What no step of TICK changes: the registers, `FAULT`, the parameters, the unit and the host's side. -/
structure SameOutside (s t : State) : Prop where
  regs : t.regs = s.regs
  fault : t.fault = s.fault
  params : t.params = s.params
  target : t.target = s.target
  host : t.host = s.host

theorem SameOutside.refl : SameOutside s s := ⟨rfl, rfl, rfl, rfl, rfl⟩

theorem SameOutside.trans {s t u : State} (h : SameOutside s t) (k : SameOutside t u) : SameOutside s u :=
  ⟨k.regs.trans h.regs, k.fault.trans h.fault, k.params.trans h.params, k.target.trans h.target,
    k.host.trans h.host⟩

theorem SameOutside.reg {s t : State} (h : SameOutside s t) (i : RegIndex) : t.reg i = s.reg i := by
  simp [State.reg, h.regs]

/-! ### Each step leaves the outside as it is -/

theorem sameOutside_withCrtc (c : Crtc) : SameOutside s (s.withCrtc c) := ⟨rfl, rfl, rfl, rfl, rfl⟩

theorem sameOutside_withGa (g : GateArray) : SameOutside s (s.withGa g) := ⟨rfl, rfl, rfl, rfl, rfl⟩

theorem sameOutside_tickHsyncWidth : SameOutside s (tickHsyncWidth s) := by
  unfold tickHsyncWidth; split
  · exact .refl s
  · split <;> exact ⟨rfl, rfl, rfl, rfl, rfl⟩

theorem sameOutside_tickHsyncArm (h : Nat) : SameOutside s (tickHsyncArm h s) := by
  unfold tickHsyncArm; split <;> exact ⟨rfl, rfl, rfl, rfl, rfl⟩

theorem sameOutside_lineVsyncWidth : SameOutside s (lineVsyncWidth s) := by
  unfold lineVsyncWidth; split <;> exact ⟨rfl, rfl, rfl, rfl, rfl⟩

theorem sameOutside_rowVsyncTrigger (c : Nat) : SameOutside s (rowVsyncTrigger c s) := by
  unfold rowVsyncTrigger; split <;> exact ⟨rfl, rfl, rfl, rfl, rfl⟩

theorem sameOutside_wrapVcc (c : Nat) : SameOutside s (wrapVcc c s) := ⟨rfl, rfl, rfl, rfl, rfl⟩

theorem sameOutside_wrapVccAtLineEnd : SameOutside s (wrapVccAtLineEnd s) := by
  unfold wrapVccAtLineEnd; split
  · exact .refl s
  · exact sameOutside_wrapVcc s _

theorem sameOutside_endRow : SameOutside s (endRow s) :=
  (sameOutside_withCrtc s _).trans ((sameOutside_rowVsyncTrigger _ _).trans (sameOutside_wrapVcc _ _))

theorem sameOutside_endLine : SameOutside s (endLine s) := by
  unfold endLine; split
  · exact sameOutside_endRow s
  · exact (sameOutside_withCrtc s _).trans (sameOutside_wrapVccAtLineEnd _)

theorem sameOutside_tickLine (h : Nat) : SameOutside s (tickLine h s) := by
  unfold tickLine; split
  · exact (sameOutside_withCrtc s _).trans ((sameOutside_lineVsyncWidth _).trans (sameOutside_endLine _))
  · exact sameOutside_withCrtc s _

/-- The frame of TICK (41_crtc.md R120: "Registers are read, never written"). -/
theorem sameOutside_tick : SameOutside s s.tick :=
  (((sameOutside_withGa s _).trans (sameOutside_withCrtc _ _)).trans
    ((sameOutside_tickHsyncWidth _).trans (sameOutside_tickHsyncArm _ _))).trans (sameOutside_tickLine _ _)

@[simp] theorem State.tick_regs : s.tick.regs = s.regs := (sameOutside_tick s).regs
@[simp] theorem State.tick_reg (i : RegIndex) : s.tick.reg i = s.reg i := (sameOutside_tick s).reg i
@[simp] theorem State.tick_fault : s.tick.fault = s.fault := (sameOutside_tick s).fault
@[simp] theorem State.tick_params : s.tick.params = s.params := (sameOutside_tick s).params
@[simp] theorem State.tick_target : s.tick.target = s.target := (sameOutside_tick s).target
@[simp] theorem State.tick_host : s.tick.host = s.host := (sameOutside_tick s).host

/-! ### The steps of the horizontal part -/

@[simp] theorem tickAdvance_crtc : (tickAdvance s).crtc = s.crtc := by rfl
@[simp] theorem tickAdvance_ga : (tickAdvance s).ga = s.ga.advance := by rfl
@[simp] theorem tickAdvance_params : (tickAdvance s).params = s.params := by rfl
@[simp] theorem tickAdvance_reg (i : RegIndex) : (tickAdvance s).reg i = s.reg i := by rfl
@[simp] theorem tickNops_crtc : (tickNops s).crtc = { s.crtc with nops := s.crtc.nops + 1 } := by rfl
@[simp] theorem tickNops_ga : (tickNops s).ga = s.ga := by rfl
@[simp] theorem tickNops_params : (tickNops s).params = s.params := by rfl
@[simp] theorem tickNops_reg (i : RegIndex) : (tickNops s).reg i = s.reg i := by rfl

@[simp] theorem tickHsyncWidth_crtc : (tickHsyncWidth s).crtc =
    { s.crtc with hsc := if s.crtc.hsc = 0#8 then 0#8 else s.crtc.hsc - 1#8 } := by
  unfold tickHsyncWidth
  split
  · rename_i h; rw [← h]
  · split
    · rename_i k; rw [k]; rfl
    · rfl

theorem byte_sub_one_eq_zero {b : Byte} : b - 1#8 = 0#8 ↔ b = 1#8 := by bv_omega

/-- GA_HSF is called exactly in a TICK that begins with `HSC == 1` (R124). -/
@[simp] theorem tickHsyncWidth_ga : (tickHsyncWidth s).ga =
    if s.crtc.hsc = 1#8 then s.ga.hsyncFall s.params.gaOrder else s.ga := by
  unfold tickHsyncWidth
  split
  · rename_i h; rw [h]; rfl
  · split
    · rename_i k; rw [if_pos (byte_sub_one_eq_zero.mp k)]; rfl
    · rename_i k; rw [if_neg (fun e => k (byte_sub_one_eq_zero.mpr e))]; rfl

@[simp] theorem tickHsyncArm_crtc (h : Nat) : (tickHsyncArm h s).crtc =
    { s.crtc with hsc := if h = (s.reg 2).toNat then s.params.hsw.toByte else s.crtc.hsc } := by
  unfold tickHsyncArm; split <;> rfl

@[simp] theorem tickHsyncArm_ga (h : Nat) : (tickHsyncArm h s).ga = s.ga := by
  unfold tickHsyncArm; split <;> rfl

/-! ### The steps of the scanline end -/

@[simp] theorem lineVsyncWidth_crtc : (lineVsyncWidth s).crtc =
    { s.crtc with vsc := if s.crtc.vsc = 0#8 then 0#8 else s.crtc.vsc - 1#8 } := by
  unfold lineVsyncWidth
  split
  · rename_i h; rw [← h]
  · rfl

@[simp] theorem lineVsyncWidth_ga : (lineVsyncWidth s).ga = s.ga := by
  unfold lineVsyncWidth; split <;> rfl

/-- The vertical-sync trigger (R130), as a proposition on the row count it is given. -/
abbrev State.triggers (s : State) (c : Nat) : Prop := c = (s.reg 7).toNat ∧ s.crtc.vsc = 0#8

@[simp] theorem rowVsyncTrigger_crtc (c : Nat) : (rowVsyncTrigger c s).crtc =
    { s.crtc with vsc := if s.triggers c then s.params.vsw.toByte else s.crtc.vsc } := by
  unfold rowVsyncTrigger; split <;> rfl

@[simp] theorem rowVsyncTrigger_ga (c : Nat) : (rowVsyncTrigger c s).ga =
    if s.triggers c then s.ga.vsyncStart else s.ga := by
  unfold rowVsyncTrigger; split <;> rfl

@[simp] theorem rowVsyncTrigger_reg (c : Nat) (i : RegIndex) : (rowVsyncTrigger c s).reg i = s.reg i :=
  (sameOutside_rowVsyncTrigger s c).reg i

@[simp] theorem wrapVcc_crtc (c : Nat) : (wrapVcc c s).crtc =
    { s.crtc with vcc := if c > (s.reg 4).toNat then 0#8 else BitVec.ofNat 8 c } := by rfl

@[simp] theorem wrapVcc_ga (c : Nat) : (wrapVcc c s).ga = s.ga := by rfl

@[simp] theorem wrapVccAtLineEnd_ga : (wrapVccAtLineEnd s).ga = s.ga := by
  unfold wrapVccAtLineEnd; split <;> rfl

@[simp] theorem tickHsyncWidth_reg (i : RegIndex) : (tickHsyncWidth s).reg i = s.reg i :=
  (sameOutside_tickHsyncWidth s).reg i
@[simp] theorem tickHsyncArm_reg (h : Nat) (i : RegIndex) : (tickHsyncArm h s).reg i = s.reg i :=
  (sameOutside_tickHsyncArm s h).reg i
@[simp] theorem lineVsyncWidth_reg (i : RegIndex) : (lineVsyncWidth s).reg i = s.reg i :=
  (sameOutside_lineVsyncWidth s).reg i
@[simp] theorem tickHsyncWidth_params : (tickHsyncWidth s).params = s.params :=
  (sameOutside_tickHsyncWidth s).params
@[simp] theorem tickHsyncArm_params (h : Nat) : (tickHsyncArm h s).params = s.params :=
  (sameOutside_tickHsyncArm s h).params
@[simp] theorem lineVsyncWidth_params : (lineVsyncWidth s).params = s.params :=
  (sameOutside_lineVsyncWidth s).params

/-! ### The conditions of TICK on the state it begins with -/

/-- The scanline ends: `h > R[0]` (R126). -/
abbrev State.lineEnds (s : State) : Prop := s.crtc.hcc.toNat + 1 > (s.reg 0).toNat

/-- The character row ends: the scanline ends and `l > R[9]` (R128). -/
abbrev State.rowEnds (s : State) : Prop := s.lineEnds ∧ s.crtc.vlc.toNat + 1 > (s.reg 9).toNat

/-- `VSC` after the scanline end's decrement (R127). -/
def State.vscAtLineEnd (s : State) : Byte := if s.crtc.vsc = 0#8 then 0#8 else s.crtc.vsc - 1#8

/-- A vertical sync starts: the row ends, `c == R[7]`, and `VSC` is 0 after the decrement (R130). -/
abbrev State.vsyncStarts (s : State) : Prop :=
  s.rowEnds ∧ s.crtc.vcc.toNat + 1 = (s.reg 7).toNat ∧ s.vscAtLineEnd = 0#8

theorem State.vscAtLineEnd_eq_zero : s.vscAtLineEnd = 0#8 ↔ s.crtc.vsc.toNat ≤ 1 := by
  unfold State.vscAtLineEnd
  split
  · simp_all
  · rename_i h
    rw [byte_sub_one_eq_zero]
    constructor
    · intro k; rw [k]; decide
    · intro k; bv_omega

theorem State.vscAtLineEnd_toNat : s.vscAtLineEnd.toNat = s.crtc.vsc.toNat - 1 := by
  unfold State.vscAtLineEnd
  split
  · simp_all
  · bv_omega

theorem toByte_toNat (w : Width) : w.toByte.toNat = w.pred.val + 1 := by
  have := w.pred.isLt
  simp only [Width.toByte, BitVec.toNat_ofNat]
  omega

/-! ### The parts of the state after a TICK -/

/-- What step (f) does not touch: `HSC` and `NOPS`. -/
structure SameSyncAndNops (s t : State) : Prop where
  hsc : t.crtc.hsc = s.crtc.hsc
  nops : t.crtc.nops = s.crtc.nops

theorem sameSyncAndNops_endLine : SameSyncAndNops s (endLine s) := by
  simp only [endLine, endRow, wrapVccAtLineEnd]
  split
  · exact ⟨by simp, by simp⟩
  · split <;> exact ⟨rfl, rfl⟩

theorem sameSyncAndNops_tickLine (h : Nat) : SameSyncAndNops s (tickLine h s) := by
  unfold tickLine
  split
  · obtain ⟨a, b⟩ := sameSyncAndNops_endLine (lineVsyncWidth (s.withCrtc { s.crtc with hcc := 0#8 }))
    exact ⟨by simpa using a, by simpa using b⟩
  · exact ⟨rfl, rfl⟩

theorem endLine_hcc : (endLine s).crtc.hcc = s.crtc.hcc := by
  simp only [endLine, endRow, wrapVccAtLineEnd]
  split
  · simp
  · split <;> rfl

theorem State.tick_nops : s.tick.crtc.nops = s.crtc.nops + 1 := by
  rw [State.tick, (sameSyncAndNops_tickLine _ _).nops]; simp

theorem State.tick_hsc : s.tick.crtc.hsc =
    if s.crtc.hcc.toNat + 1 = (s.reg 2).toNat then s.params.hsw.toByte
    else if s.crtc.hsc = 0#8 then 0#8 else s.crtc.hsc - 1#8 := by
  rw [State.tick, (sameSyncAndNops_tickLine _ _).hsc]; simp

theorem State.tick_hcc : s.tick.crtc.hcc =
    if s.lineEnds then 0#8 else BitVec.ofNat 8 (s.crtc.hcc.toNat + 1) := by
  simp only [State.tick, tickLine]
  by_cases h : s.lineEnds
  · rw [if_pos h, if_pos (by simpa using h), endLine_hcc]; simp
  · rw [if_neg h, if_neg (by simpa using h)]; rfl

/-- The state that step (f)'s scanline end works on, in the parts that it reads. -/
theorem State.tick_of_lineEnds (h : s.lineEnds) : ∃ u : State, s.tick = endLine u ∧ SameOutside s u ∧
    u.crtc.vlc = s.crtc.vlc ∧ u.crtc.vcc = s.crtc.vcc ∧ u.crtc.vsc = s.vscAtLineEnd ∧
    u.ga = (tickHsyncWidth (tickNops (tickAdvance s))).ga := by
  refine ⟨lineVsyncWidth ((tickHsyncArm (s.crtc.hcc.toNat + 1)
    (tickHsyncWidth (tickNops (tickAdvance s)))).withCrtc
      { (tickHsyncArm (s.crtc.hcc.toNat + 1) (tickHsyncWidth (tickNops (tickAdvance s)))).crtc with
        hcc := 0#8 }), ?_, ?_, ?_, ?_, ?_, ?_⟩
  · simp only [State.tick, tickLine]
    rw [if_pos (by simpa using h)]
  · exact (((sameOutside_withGa s _).trans (sameOutside_withCrtc _ _)).trans
      ((sameOutside_tickHsyncWidth _).trans (sameOutside_tickHsyncArm _ _))).trans
      ((sameOutside_withCrtc _ _).trans (sameOutside_lineVsyncWidth _))
  · simp
  · simp
  · simp [State.vscAtLineEnd]
  · simp

theorem State.tick_of_not_lineEnds (h : ¬ s.lineEnds) : s.tick =
    (tickHsyncArm (s.crtc.hcc.toNat + 1) (tickHsyncWidth (tickNops (tickAdvance s)))).withCrtc
      { (tickHsyncArm (s.crtc.hcc.toNat + 1) (tickHsyncWidth (tickNops (tickAdvance s)))).crtc with
        hcc := BitVec.ofNat 8 (s.crtc.hcc.toNat + 1) } := by
  simp only [State.tick, tickLine]
  rw [if_neg (by simpa using h)]

theorem State.tick_vlc : s.tick.crtc.vlc =
    if s.rowEnds then 0#8
    else if s.lineEnds then BitVec.ofNat 8 (s.crtc.vlc.toNat + 1) else s.crtc.vlc := by
  by_cases h : s.lineEnds
  · obtain ⟨u, hu, hs, hl, -⟩ := s.tick_of_lineEnds h
    rw [hu, endLine, hl, hs.reg]
    by_cases r : s.crtc.vlc.toNat + 1 > (s.reg 9).toNat
    · rw [if_pos r, if_pos ⟨h, r⟩]; simp [endRow]
    · rw [if_neg r, if_neg (fun k => r k.2), if_pos h]
      unfold wrapVccAtLineEnd; split <;> simp
  · rw [s.tick_of_not_lineEnds h, if_neg (fun k => h k.1), if_neg h]
    simp

theorem State.tick_vsc : s.tick.crtc.vsc =
    if s.vsyncStarts then s.params.vsw.toByte
    else if s.lineEnds then s.vscAtLineEnd else s.crtc.vsc := by
  by_cases h : s.lineEnds
  · obtain ⟨u, hu, hs, hl, hv, hc, -⟩ := s.tick_of_lineEnds h
    rw [hu, endLine, hl, hs.reg]
    by_cases r : s.crtc.vlc.toNat + 1 > (s.reg 9).toNat
    · rw [if_pos r]
      by_cases k : s.crtc.vcc.toNat + 1 = (s.reg 7).toNat ∧ s.vscAtLineEnd = 0#8
      · rw [if_pos ⟨⟨h, r⟩, k⟩]
        simp [endRow, State.triggers, hv, hs.reg, hc, k, hs.params]
      · rw [if_neg (fun m => k m.2), if_pos h]
        simp [endRow, State.triggers, hv, hs.reg, hc, k]
    · rw [if_neg r, if_neg (fun m => r m.1.2), if_pos h]
      unfold wrapVccAtLineEnd; split <;> simp [hc]
  · rw [s.tick_of_not_lineEnds h, if_neg (fun k => h k.1.1), if_neg h]
    simp

theorem State.tick_vcc : s.tick.crtc.vcc =
    if s.rowEnds then
      if s.crtc.vcc.toNat + 1 > (s.reg 4).toNat then 0#8 else BitVec.ofNat 8 (s.crtc.vcc.toNat + 1)
    else if s.lineEnds ∧ s.params.vccWrapScope = .line ∧ s.crtc.vcc.toNat > (s.reg 4).toNat then 0#8
    else s.crtc.vcc := by
  by_cases h : s.lineEnds
  · obtain ⟨u, hu, hs, hl, hv, -⟩ := s.tick_of_lineEnds h
    rw [hu, endLine, hl, hs.reg]
    by_cases r : s.crtc.vlc.toNat + 1 > (s.reg 9).toNat
    · rw [if_pos r, if_pos ⟨h, r⟩]
      simp [endRow, hv, hs.reg]
    · rw [if_neg r, if_neg (fun k => r k.2)]
      unfold wrapVccAtLineEnd
      simp only [State.withCrtc_params, hs.params]
      split
      · rename_i e; simp [e, hv]
      · rename_i e
        by_cases q : s.crtc.vcc.toNat > (s.reg 4).toNat
        · rw [if_pos ⟨h, e, q⟩]; simpa [hv, hs.reg] using fun z => absurd q (Nat.not_lt.mpr z)
        · rw [if_neg (fun k => q k.2.2)]
          have q' : ¬ (s.reg 4).toNat < s.crtc.vcc.toNat := q
          simp [hv, hs.reg, q']
  · rw [s.tick_of_not_lineEnds h, if_neg (fun k => h k.1), if_neg (fun k => h k.1)]
    simp

/-- The Gate Array after a TICK: GA_ADV, then GA_HSF in a tick that begins with `HSC == 1`, then GA_VSS in
a tick that starts a vertical sync (60_exceptions.md R199 (c)). -/
theorem State.tick_ga : s.tick.ga =
    (let g := if s.crtc.hsc = 1#8 then s.ga.advance.hsyncFall s.params.gaOrder else s.ga.advance
     if s.vsyncStarts then g.vsyncStart else g) := by
  by_cases h : s.lineEnds
  · obtain ⟨u, hu, hs, hl, hv, hc, hg⟩ := s.tick_of_lineEnds h
    have hg' : u.ga = if s.crtc.hsc = 1#8 then s.ga.advance.hsyncFall s.params.gaOrder
        else s.ga.advance := by rw [hg]; simp
    rw [hu, endLine, hl, hs.reg]
    by_cases r : s.crtc.vlc.toNat + 1 > (s.reg 9).toNat
    · rw [if_pos r]
      by_cases k : s.crtc.vcc.toNat + 1 = (s.reg 7).toNat ∧ s.vscAtLineEnd = 0#8
      · simp only [if_pos (show s.vsyncStarts from ⟨⟨h, r⟩, k⟩)]
        simp [endRow, State.triggers, hv, hs.reg, hc, k, hg']
      · simp only [if_neg (show ¬ s.vsyncStarts from fun m => k m.2)]
        simp [endRow, State.triggers, hv, hs.reg, hc, k, hg']
    · rw [if_neg r]
      simp only [if_neg (show ¬ s.vsyncStarts from fun m => r m.1.2)]
      simp [hg']
  · rw [s.tick_of_not_lineEnds h]
    simp only [if_neg (show ¬ s.vsyncStarts from fun m => h m.1.1)]
    simp

end Sys2Proof.Machine
end

