-- ==== Sys2Proof/Laws/Step.lean ====
section
/-! SUPPORT. Laws/Step.lean: what `exec` and `step` can do, said once. Proofs about every operation or every step take these cases
and unfold neither. -/

namespace Sys2Proof.Machine

variable {s t : State} {i : Instr}

theorem onTarget_of_takes (h : s.target.takes i = true) (k : State → State) :
    onTarget i s k = .next (k s) := if_pos h

theorem onTarget_of_not_takes (h : s.target.takes i = false) (k : State → State) :
    onTarget i s k = .next (s.raise (.invalidCommand (encode i))) := by
  simp [onTarget, h]

/-- Both directions of the guard at once. -/
theorem onTarget_eq_next {k : State → State} (h : onTarget i s k = .next t) :
    (s.target.takes i = true ∧ t = k s) ∨
    (s.target.takes i = false ∧ t = s.raise (.invalidCommand (encode i))) := by
  by_cases c : s.target.takes i = true
  · rw [onTarget_of_takes c] at h; exact .inl ⟨c, by injection h with h; exact h.symm⟩
  · have c' : s.target.takes i = false := by simpa using c
    rw [onTarget_of_not_takes c'] at h; exact .inr ⟨c', by injection h with h; exact h.symm⟩

@[simp] theorem byteOf_toNat (v : Byte) : byteOf (v.toNat : Int) = some v := by
  have := v.isLt
  unfold byteOf
  rw [if_pos ⟨by omega, by omega⟩]
  simp

@[simp] theorem regIndexOf_val (i : RegIndex) : regIndexOf (i.val : Int) = some i := by
  have := i.isLt
  unfold regIndexOf
  rw [dif_pos ⟨by omega, by omega⟩]
  simp

theorem regIndexOf_eq_none {index : Int} : regIndexOf index = none ↔ index < 0 ∨ 13 < index := by
  unfold regIndexOf; split <;> simp <;> omega

theorem byteOf_eq_none {value : Int} : byteOf value = none ↔ value < 0 ∨ 255 < value := by
  unfold byteOf; split <;> simp <;> omega

theorem regIndexOf_eq_some {index : Int} {r : RegIndex} :
    regIndexOf index = some r ↔ index = (r.val : Int) := by
  constructor
  · intro h
    unfold regIndexOf at h
    split at h
    · injection h with h; subst h; simp; omega
    · cases h
  · rintro rfl; exact regIndexOf_val r

/-- What each operation but SETREG does on the unit that takes it. -/
def plainEffect (i : Instr) (s : State) : State :=
  match i with
  | .tick => s.tick.withAnswer .nothing
  | .setreg _ _ => s
  | .reset => ((s.withCrtc Crtc.zeroed).withGa GateArray.fresh).withAnswer .nothing
  | .qhsync => s.withAnswer (.bit s.hsyncOut)
  | .qvsync => s.withAnswer (.bit s.vsyncOut)
  | .qborder => s.withAnswer (.bit s.borderOut)
  | .qint => s.withAnswer (.bit s.intOut)
  | .runvs => runvsLeave (s.withAnswer .nothing)
  | .gaAdv => (s.withGa s.ga.advance).withAnswer .nothing
  | .gaHsf => (s.withGa (s.ga.hsyncFall s.params.gaOrder)).withAnswer .nothing
  | .gaVss => (s.withGa s.ga.vsyncStart).withAnswer .nothing

theorem exec_of_takes (h : s.target.takes i = true) (k : ∀ index value, i ≠ .setreg index value) :
    exec i s = .next (plainEffect i s) := by
  cases i with
  | setreg index value => exact absurd rfl (k index value)
  | _ => simp only [exec, execTick, execReset, execQhsync, execQvsync, execQborder, execQint, execRunvs,
      execGaAdv, execGaHsf, execGaVss]; exact onTarget_of_takes h _

theorem exec_of_not_takes (h : s.target.takes i = false)
    (k : ∀ index value, i = .setreg index value → 0 ≤ value ∧ value ≤ 255) :
    exec i s = .next (s.raise (.invalidCommand (encode i))) := by
  cases i with
  | setreg index value =>
    obtain ⟨a, b⟩ := k index value rfl
    have e : byteOf value = some (BitVec.ofInt 8 value) := if_pos ⟨a, b⟩
    simp only [exec, execSetreg, e]
    exact onTarget_of_not_takes h _
  | _ => simp only [exec, execTick, execReset, execQhsync, execQvsync, execQborder, execQint, execRunvs,
      execGaAdv, execGaHsf, execGaVss]; exact onTarget_of_not_takes h _

theorem exec_setreg (h : s.target = .composed) (r : RegIndex) (v : Byte) :
    exec (.setreg (r.val : Int) (v.toNat : Int)) s = .next ((s.writeReg r v).withAnswer .nothing) := by
  simp only [exec, execSetreg, byteOf_toNat]
  rw [onTarget_of_takes (by rw [h]; rfl), setRegister, regIndexOf_val]

/-- The operands that the decoder gives SETREG are its two fields. -/
theorem decode_setreg {w : CmdWord} {index value : Int} (h : decode w = .instr (.setreg index value)) :
    index = (idxField w).toNat ∧ value = (valField w).toNat := by
  unfold decode decodeBare at h
  split at h <;> try split at h
  all_goals simp_all

/-- The shapes that the state after an operation can have. -/
inductive Effect (i : Instr) (s : State) : State → Prop where
  /-- A failure of code 3 or 5. -/
  | failed (f : Failure) : Effect i s (s.raise f)
  | tick : i = .tick → s.target = .composed → Effect i s (s.tick.withAnswer .nothing)
  | setreg (index value : Int) (r : RegIndex) (v : Byte) : i = .setreg index value →
      s.target = .composed → Effect i s ((s.writeReg r v).withAnswer .nothing)
  | reset : i = .reset → s.target = .composed →
      Effect i s (((s.withCrtc Crtc.zeroed).withGa GateArray.fresh).withAnswer .nothing)
  | query (b : Bool) : (i = .qhsync ∨ i = .qvsync ∨ i = .qborder ∨ i = .qint) →
      Effect i s (s.withAnswer (.bit b))
  | runvs : i = .runvs → s.target = .composed → Effect i s (runvsLeave (s.withAnswer .nothing))
  | gate (g : GateArray) : (i = .gaAdv ∨ i = .gaHsf ∨ i = .gaVss) → s.target = .gateArrayAlone →
      Effect i s ((s.withGa g).withAnswer .nothing)

/-- Whatever `exec` answers with next has one of the shapes. -/
theorem effect_of_exec (h : exec i s = .next t) : Effect i s t := by
  cases i with
  | tick =>
    simp only [exec, execTick] at h
    obtain ⟨c, rfl⟩ | ⟨-, rfl⟩ := onTarget_eq_next h
    · exact .tick rfl (by simpa [Target.takes] using c)
    · exact .failed _
  | setreg index value =>
    simp only [exec, execSetreg] at h
    cases hv : byteOf value with
    | none => rw [hv] at h; cases h
    | some v =>
      rw [hv] at h
      obtain ⟨c, rfl⟩ | ⟨-, rfl⟩ := onTarget_eq_next h
      · simp only [setRegister]
        split
        · exact .failed _
        · exact .setreg _ _ _ _ rfl (by simpa [Target.takes] using c)
      · exact .failed _
  | reset =>
    simp only [exec, execReset] at h
    obtain ⟨c, rfl⟩ | ⟨-, rfl⟩ := onTarget_eq_next h
    · exact .reset rfl (by simpa [Target.takes] using c)
    · exact .failed _
  | qhsync =>
    simp only [exec, execQhsync] at h
    obtain ⟨-, rfl⟩ | ⟨-, rfl⟩ := onTarget_eq_next h
    · exact .query _ (by simp)
    · exact .failed _
  | qvsync =>
    simp only [exec, execQvsync] at h
    obtain ⟨-, rfl⟩ | ⟨-, rfl⟩ := onTarget_eq_next h
    · exact .query _ (by simp)
    · exact .failed _
  | qborder =>
    simp only [exec, execQborder] at h
    obtain ⟨-, rfl⟩ | ⟨-, rfl⟩ := onTarget_eq_next h
    · exact .query _ (by simp)
    · exact .failed _
  | qint =>
    simp only [exec, execQint] at h
    obtain ⟨-, rfl⟩ | ⟨-, rfl⟩ := onTarget_eq_next h
    · exact .query _ (by simp)
    · exact .failed _
  | runvs =>
    simp only [exec, execRunvs] at h
    obtain ⟨c, rfl⟩ | ⟨-, rfl⟩ := onTarget_eq_next h
    · exact .runvs rfl (by simpa [Target.takes] using c)
    · exact .failed _
  | gaAdv =>
    simp only [exec, execGaAdv] at h
    obtain ⟨c, rfl⟩ | ⟨-, rfl⟩ := onTarget_eq_next h
    · exact .gate _ (by simp) (by simpa [Target.takes] using c)
    · exact .failed _
  | gaHsf =>
    simp only [exec, execGaHsf] at h
    obtain ⟨c, rfl⟩ | ⟨-, rfl⟩ := onTarget_eq_next h
    · exact .gate _ (by simp) (by simpa [Target.takes] using c)
    · exact .failed _
  | gaVss =>
    simp only [exec, execGaVss] at h
    obtain ⟨c, rfl⟩ | ⟨-, rfl⟩ := onTarget_eq_next h
    · exact .gate _ (by simp) (by simpa [Target.takes] using c)
    · exact .failed _

/-- What one step can be. -/
theorem step_cases (h : step s = .next t) :
    (∃ p, s.host.busy = some p ∧ t = resume p s) ∨
    (s.host.busy = none ∧ s.host.program = [] ∧ t = s) ∨
    (∃ rest, s.host.busy = none ∧ s.host.program = .waitInt :: rest ∧
      t = resume .waitTick (s.withProgram rest)) ∨
    (∃ w rest, s.host.busy = none ∧ s.host.program = .word w :: rest ∧
      (∃ r, decode w = .reserved r) ∧ t = (s.withProgram rest).raise (.invalidCommand w)) ∨
    (∃ w rest i, s.host.busy = none ∧ s.host.program = .word w :: rest ∧ decode w = .instr i ∧
      exec i (s.withProgram rest) = .next t) := by
  unfold step at h
  cases hb : s.host.busy with
  | some p =>
    rw [hb] at h; injection h with h; exact .inl ⟨p, rfl, h.symm⟩
  | none =>
    rw [hb] at h
    simp only [runProgram] at h
    cases hp : s.host.program with
    | nil => rw [hp] at h; injection h with h; exact .inr (.inl ⟨rfl, rfl, h.symm⟩)
    | cons x rest =>
      rw [hp] at h
      cases x with
      | waitInt =>
        injection h with h; exact .inr (.inr (.inl ⟨rest, rfl, rfl, h.symm⟩))
      | word w =>
        simp only [runItem, runWord] at h
        cases hd : decode w with
        | reserved r =>
          rw [hd] at h; injection h with h
          exact .inr (.inr (.inr (.inl ⟨w, rest, rfl, rfl, ⟨r, hd⟩, h.symm⟩)))
        | instr i =>
          rw [hd] at h
          exact .inr (.inr (.inr (.inr ⟨w, rest, i, rfl, rfl, hd, h⟩)))

/-- A TICK reads nothing of the host's side. -/
theorem State.tick_with_host (s : State) (k : HostSide) :
    ({ s with host := k } : State).tick = { s.tick with host := k } := by
  have e : ∀ (u : State), u.crtc = s.tick.crtc → u.ga = s.tick.ga → u.regs = s.regs →
      u.fault = s.fault → u.params = s.params → u.target = s.target → u.host = k →
      u = { s.tick with host := k } := by
    intro u a b c d e f g
    cases u
    simp_all
  apply e
  · have h1 : ∀ c d : Crtc, c.hcc = d.hcc → c.vlc = d.vlc → c.vcc = d.vcc → c.hsc = d.hsc →
        c.vsc = d.vsc → c.nops = d.nops → c = d := by
      rintro ⟨⟩ ⟨⟩; simp_all
    exact h1 _ _ (by simp only [State.tick_hcc]; rfl) (by simp only [State.tick_vlc]; rfl)
      (by simp only [State.tick_vcc]; rfl) (by simp only [State.tick_hsc]; rfl)
      (by simp only [State.tick_vsc]; rfl) (by simp only [State.tick_nops])
  · simp only [State.tick_ga]; rfl
  all_goals simp

theorem State.withHost_of_host {s u : State} (h : u.host = s.host) (f : HostSide → HostSide) :
    ({ u with host := f s.host } : State) = { u with host := f u.host } := by rw [h]

theorem State.tick_withAnswer (s : State) (a : Answer) :
    (s.withAnswer a).tick = s.tick.withAnswer a :=
  (s.tick_with_host { s.host with answer := a }).trans
    (State.withHost_of_host s.tick_host fun k => { k with answer := a })

theorem State.tick_withProgram (s : State) (p : List HostItem) :
    (s.withProgram p).tick = s.tick.withProgram p :=
  (s.tick_with_host { s.host with program := p }).trans
    (State.withHost_of_host s.tick_host fun k => { k with program := p })

theorem State.withAnswer_self {s : State} {a : Answer} (h : s.host.answer = a) : s.withAnswer a = s := by
  subst h; rfl

/-- Each procedure's next operation, by what it does to the block: it is one TICK, or nothing. -/
theorem proceed_block (p : Procedure) (s : State) :
    (∃ b a, proceed p s = (s.tick.withAnswer a).withBusy b) ∨
    (∃ b a, proceed p s = (s.withAnswer a).withBusy b) := by
  cases p with
  | runvsLeave =>
    simp only [proceed, runvsLeave]
    split
    · exact .inl ⟨_, s.host.answer, by rw [State.withAnswer_self (by rw [s.tick_host])]⟩
    · simp only [runvsAwait]
      split
      · exact .inr ⟨none, s.host.answer, rfl⟩
      · exact .inl ⟨_, s.host.answer, by rw [State.withAnswer_self (by rw [s.tick_host])]⟩
  | runvsAwait =>
    simp only [proceed, runvsAwait]
    split
    · exact .inr ⟨none, s.host.answer, rfl⟩
    · exact .inl ⟨_, s.host.answer, by rw [State.withAnswer_self (by rw [s.tick_host])]⟩
  | waitTick => exact .inl ⟨_, _, rfl⟩
  | waitQuery => exact .inr ⟨_, _, rfl⟩

end Sys2Proof.Machine
end

