-- ==== Sys2Proof/Tests/Slice0.lean ====
section
/-! SUPPORT. Tests/Slice0.lean: the model's own tests. Expected results come from the spec's worked examples and from
95_test_vectors.md, named in each docstring; the witnesses show that the hypotheses of the statements can be
met together. Configuration S is that of 41_crtc.md: `HSW = VSW = 2`. -/

namespace Sys2Proof.Tests

open Sys2Proof Sys2Proof.Machine

/-! ### Small states -/

/-- `HSW = 2`, `VSW = 2`. -/
def paramsS : Params := { hsw := ⟨1⟩, vsw := ⟨1⟩, gaOrder := .dividerFirst, vccWrapScope := .row }

/-- The registers of configuration S. -/
def regsS : Vector Byte 14 := #v[7, 5, 3, 0, 3, 0, 2, 2, 0, 1, 0, 0, 0, 0]

/-- The composed block in configuration S, with the given counters and Gate Array. -/
def stateS (c : Crtc) (g : GateArray) : State := ((State.powerOn paramsS regsS).withCrtc c).withGa g

/-- Configuration S right after RESET. -/
def resetS : State := State.powerOn paramsS regsS

/-- The stand-alone Gate Array unit. -/
def alone (g : GateArray) : State := (resetS.withGa g).withTarget .gateArrayAlone

/-- The alternative order of GA_HSF. -/
def aloneOther (g : GateArray) : State := { alone g with params := { paramsS with gaOrder := .countdownFirst } }

/-- The host has one word to issue. -/
def issuing (w : CmdWord) (s : State) : State := s.withProgram [.word w]

/-- The next state, if there is one. -/
def nextOf : Host.Outcome State Fault Refusal → Option State
  | .next t => some t
  | .fault _ => none
  | .refused _ => none

/-- The counters and the Gate Array of the next state. -/
def blockOf (o : Host.Outcome State Fault Refusal) : Option (Crtc × GateArray) :=
  (nextOf o).map fun t => (t.crtc, t.ga)

/-- What the host is handed. -/
def answerOf (o : Host.Outcome State Fault Refusal) : Option Answer := (nextOf o).map fun t => t.host.answer

/-! ### WellFormed refuses ill-formed operations (30_encoding.md R83) -/

theorem test_wf_index_negative : (Instr.setreg (-1) 0).wf = false := by decide
theorem test_wf_index_too_big : (Instr.setreg 16 0).wf = false := by decide
theorem test_wf_value_negative : (Instr.setreg 0 (-1)).wf = false := by decide
theorem test_wf_value_too_big : (Instr.setreg 0 256).wf = false := by decide
theorem test_wf_corners : (Instr.setreg 15 255).wf = true ∧ (Instr.setreg 0 0).wf = true := by decide

/-! ### Decoding: words written out from op, idx, val of 30_encoding.md R81 and R82 -/

theorem test_decode_tick : decode 0b0000_0000_00000000#16 = .instr .tick := by decide
theorem test_decode_setreg : decode 0b0001_0010_00101000#16 = .instr (.setreg 2 40) := by decide
theorem test_decode_setreg_high : decode 0b0001_1101_11111111#16 = .instr (.setreg 13 255) := by decide
theorem test_decode_reset : decode 0b0010_0000_00000000#16 = .instr .reset := by decide
theorem test_decode_qhsync : decode 0b0011_0000_00000000#16 = .instr .qhsync := by decide
theorem test_decode_qvsync : decode 0b0100_0000_00000000#16 = .instr .qvsync := by decide
theorem test_decode_qborder : decode 0b0101_0000_00000000#16 = .instr .qborder := by decide
theorem test_decode_qint : decode 0b0110_0000_00000000#16 = .instr .qint := by decide
theorem test_decode_runvs : decode 0b0111_0000_00000000#16 = .instr .runvs := by decide
theorem test_decode_ga_adv : decode 0b1000_0000_00000000#16 = .instr .gaAdv := by decide
theorem test_decode_ga_hsf : decode 0b1001_0000_00000000#16 = .instr .gaHsf := by decide
theorem test_decode_ga_vss : decode 0b1010_0000_00000000#16 = .instr .gaVss := by decide

/-- 95_test_vectors.md section 6, the reserved words. -/
theorem test_decode_reserved : decode 0x0001#16 = .reserved .unusedField ∧
    decode 0x2100#16 = .reserved .unusedField ∧ decode 0x60FF#16 = .reserved .unusedField ∧
    decode 0xB000#16 = .reserved .opcode ∧ decode 0xFFFF#16 = .reserved .opcode := by decide

/-- The encoder writes the words of R82 and R83. -/
theorem test_encode : encode (.setreg 7 35) = 0x1723#16 ∧ encode .gaVss = 0xA000#16 := by decide

/-- The opcode table's numbering: one word, bit 0 its least significant bit. -/
theorem test_decode_table_word : decodeTableWord 16 0x1426 = some (.setreg 4 38) ∧
    decodeTableWord 16 0xC000 = none := by decide

/-! ### One operation -/

/-- 41_crtc.md R120: `(4,0,0,1,0,4 | 0,0,-1) -> (5,0,0,0,0,5 | 1,0,-1)`, an hsync fall. -/
theorem test_tick_hsync_fall :
    blockOf (exec .tick (stateS ⟨4, 0, 0, 1, 0, 4⟩ ⟨0, false, .disarmed⟩)) =
      some (⟨5, 0, 0, 0, 0, 5⟩, ⟨1, false, .disarmed⟩) := by decide

/-- 41_crtc.md R120: `(7,1,1,0,0,31 | 4,0,-1) -> (0,0,2,0,2,32 | 4,0,2)`, a row end with a vsync start. -/
theorem test_tick_vsync_start :
    blockOf (exec .tick (stateS ⟨7, 1, 1, 0, 0, 31⟩ ⟨4, false, .disarmed⟩)) =
      some (⟨0, 0, 2, 0, 2, 32⟩, ⟨4, false, .two⟩) := by decide

/-- 41_crtc.md R140: `SETREG 2, 40` leaves `R[2] = 40`. -/
theorem test_setreg_writes : (nextOf (exec (.setreg 2 40) resetS)).map (fun t => t.regs) =
    some #v[7, 5, 40, 0, 3, 0, 2, 2, 0, 1, 0, 0, 0, 0] := by decide

/-- 95_test_vectors.md section 7: `SETREG 14, 0` raises InvalidRegisterIndex(14) and sets `FAULT`. -/
theorem test_setreg_bad_index :
    (nextOf (exec (.setreg 14 0) resetS)).map (fun t => (t.fault, t.regs, t.host.answer)) =
      some (true, regsS, .failed (.invalidRegisterIndex 14)) := by decide

/-- 41_crtc.md R144: `(5,1,2,0,1,45 | 0,1,-1) -> (0,0,0,0,0,0 | 0,0,-1)`. -/
theorem test_reset_zeroes :
    blockOf (exec .reset (stateS ⟨5, 1, 2, 0, 1, 45⟩ ⟨0, true, .disarmed⟩)) =
      some (⟨0, 0, 0, 0, 0, 0⟩, ⟨0, false, .disarmed⟩) := by decide

/-- 41_crtc.md R141: after tick 3 of configuration S `QHSYNC -> 1`. -/
theorem test_qhsync_one :
    answerOf (exec .qhsync (stateS ⟨3, 0, 0, 2, 0, 3⟩ ⟨0, false, .disarmed⟩)) = some (.bit true) := by decide

/-- 41_crtc.md R141: after tick 5 `QHSYNC -> 0`. -/
theorem test_qhsync_zero :
    answerOf (exec .qhsync (stateS ⟨5, 0, 0, 0, 0, 5⟩ ⟨1, false, .disarmed⟩)) = some (.bit false) := by decide

/-- 41_crtc.md R142: after tick 32 `QVSYNC -> 1`. -/
theorem test_qvsync_one :
    answerOf (exec .qvsync (stateS ⟨0, 0, 2, 0, 2, 32⟩ ⟨4, false, .two⟩)) = some (.bit true) := by decide

/-- 41_crtc.md R143: after tick 4 `QBORDER -> 0`. -/
theorem test_qborder_zero :
    answerOf (exec .qborder (stateS ⟨4, 0, 0, 1, 0, 4⟩ ⟨0, false, .disarmed⟩)) = some (.bit false) := by decide

/-- 41_crtc.md R143: after tick 32 `QBORDER -> 1`, for VCC 2 >= R6 2. -/
theorem test_qborder_vertical :
    answerOf (exec .qborder (stateS ⟨0, 0, 2, 0, 2, 32⟩ ⟨4, false, .two⟩)) = some (.bit true) := by decide

/-- 40_gate_array.md R105: state `(0,1,-1)`: `QINT -> 1`, and the flag stays. -/
theorem test_qint_keeps_flag :
    (nextOf (exec .qint (alone ⟨0, true, .disarmed⟩))).map (fun t => (t.host.answer, t.ga.irq)) =
      some (.bit true, true) := by decide

/-- 42_host_procedures.md R160, the last of the 32 ticks: RUNVS ends in `(0,0,2,0,2,32 | 4,0,2)`. -/
theorem test_runvs_ends :
    (nextOf (exec .runvs (stateS ⟨7, 1, 1, 0, 0, 31⟩ ⟨4, false, .disarmed⟩))).map
      (fun t => (t.crtc, t.ga, t.host.busy)) = some (⟨0, 0, 2, 0, 2, 32⟩, ⟨4, false, .two⟩, none) := by decide

/-- R160: with a vertical sync active RUNVS first ticks in its first loop. -/
theorem test_runvs_leaves_first :
    (nextOf (exec .runvs (stateS ⟨0, 0, 2, 0, 2, 32⟩ ⟨4, false, .two⟩))).map
      (fun t => (t.crtc.nops, t.host.busy)) = some (33, some .runvsLeave) := by decide

/-- 95_test_vectors.md section 4: `(51,1,-1)`, GA_ADV, `(51,0,-1)`. -/
theorem test_ga_adv : (nextOf (exec .gaAdv (alone ⟨51, true, .disarmed⟩))).map (fun t => t.ga) =
    some ⟨51, false, .disarmed⟩ := by decide

/-- 95_test_vectors.md section 4: `(31,0,1)`, GA_HSF, `(0,0,-1)`; the correction without an interrupt. -/
theorem test_ga_hsf : (nextOf (exec .gaHsf (alone ⟨31, false, .one⟩))).map (fun t => t.ga) =
    some ⟨0, false, .disarmed⟩ := by decide

/-- 95_test_vectors.md section 4: the same event under `countdown_first`, `(1,1,-1)`. -/
theorem test_ga_hsf_other_order :
    (nextOf (exec .gaHsf (aloneOther ⟨31, false, .one⟩))).map (fun t => t.ga) =
      some ⟨1, true, .disarmed⟩ := by decide

/-- 95_test_vectors.md section 4: `(5,1,2)`, GA_VSS, `(5,1,2)`. -/
theorem test_ga_vss : (nextOf (exec .gaVss (alone ⟨5, true, .two⟩))).map (fun t => t.ga) =
    some ⟨5, true, .two⟩ := by decide

/-! ### Steps, and the placing of a word -/

/-- 95_test_vectors.md section 7: `0x9000` from the host on the composed block. -/
theorem test_step_ga_word_on_composed :
    (nextOf (step (issuing 0x9000#16 resetS))).map (fun t => (t.fault, t.ga, t.host.answer)) =
      some (true, resetS.ga, .failed (.invalidCommand 0x9000#16)) := by decide

/-- A word placed for the next step is what that step runs, on the unit that takes it. -/
theorem test_with_fetch_word :
    (nextOf (step (resetS.withFetchWord 16 0x1228))).map (fun t => t.regs[2]) = some 40#8 ∧
    (nextOf (step (resetS.withFetchWord 16 0xA000))).map (fun t => (t.ga.vcd, t.target)) =
      some (.two, .gateArrayAlone) := by decide

/-- 30_encoding.md R88 and 95_test_vectors.md P1: lines of a host program and their words. -/
theorem test_assemble :
    assembleText ["SETREG R0, 7      ; 0x1007".toList, "SETREG 9, 0x1".toList, "TICKS 2".toList,
      "QHSYNC -> 1      ; 0x3000".toList, "FORCE 2, 40".toList, "WAITINT".toList] =
    some [.word 0x1007#16, .word 0x1901#16, .word 0x0000#16, .word 0x0000#16, .word 0x3000#16,
      .word 0x1228#16, .word 0x2000#16, .waitInt] := by decide

/-- R88: a register name goes up to R13, and a value must fit a byte (R83). -/
theorem test_assemble_rejects : parseLine "SETREG R14, 0".toList = none ∧
    parseLine "SETREG 3, 256".toList = none ∧ parseLine "TOCK".toList = none := by decide

/-! ### Witnesses: for each statement with hypotheses, a state and operands that meet them all -/

/-- The state after one step. -/
def stepped (s : State) : State := (nextOf (step s)).getD s

/-- The state after one operation. -/
def done (i : Instr) (s : State) : State := (nextOf (exec i s)).getD s

/-- `s` with a procedure in progress. -/
def during (p : Procedure) (s : State) : State := s.withBusy (some p)

/-- Configuration S after tick 31, one tick before a vertical-sync start. -/
def beforeVsync : State := stateS ⟨7, 1, 1, 0, 0, 31⟩ ⟨4, false, .disarmed⟩

/-- The same position with a `VSC` of 1, which the tick brings to 0 and arms again (41_crtc.md R139 (c)). -/
def beforeVsyncOne : State := stateS ⟨7, 1, 1, 0, 1, 31⟩ ⟨4, false, .disarmed⟩

/-- Configuration S after tick 32, a vertical-sync start. -/
def atVsync : State := stateS ⟨0, 0, 2, 0, 2, 32⟩ ⟨4, false, .two⟩

/-- Configuration S after tick 4, one tick before an hsync fall. -/
def beforeFall : State := stateS ⟨4, 0, 0, 1, 0, 4⟩ ⟨0, false, .disarmed⟩

/-- Configuration S with `VCC_WRAP_SCOPE = line`. -/
def lineScope (s : State) : State := { s with params := { s.params with vccWrapScope := .line } }

/-- A scanline end inside a row, with `VCC > R4`. -/
def insideRow : State := lineScope (stateS ⟨7, 0, 4, 0, 0, 0⟩ GateArray.fresh)

theorem witness_DecodeOfEncodeIsTheOperation :
    (Instr.setreg 15 255).wf = true ∧ (Instr.setreg 0 0).wf = true ∧ Instr.gaVss.wf = true := by decide

theorem witness_EncodeOfDecodeIsTheWord : decode 0x1FFF#16 = .instr (.setreg 15 255) := by decide

theorem witness_ValidWordsAreTheListedOnes :
    (0x1E00 ≤ (0x1E00#16 : CmdWord).toNat ∧ (0x1E00#16 : CmdWord).toNat ≤ 0x1FFF) ∧
    (0x1E00 ≤ (0x1FFF#16 : CmdWord).toNat ∧ (0x1FFF#16 : CmdWord).toNat ≤ 0x1FFF) := by decide

/-- Each of the three causes, at the edge of its range. -/
theorem witness_ReservedWordRaisesInvalidCommand :
    ((issuing 0xB000#16 resetS).host.busy = none ∧
      (issuing 0xB000#16 resetS).host.program = [.word 0xB000#16] ∧ 0xB ≤ (0xB000#16).toNat / 4096) ∧
    ((issuing 0x0001#16 resetS).host.program = [.word 0x0001#16] ∧
      (0x0001#16).toNat / 4096 ≠ 1 ∧ (0x0001#16).toNat % 4096 ≠ 0) ∧
    ((issuing 0xA000#16 resetS).host.program = [.word 0xA000#16] ∧
      (issuing 0xA000#16 resetS).target = .composed) := by decide

theorem witness_WordsOfTheOtherUnitAreReserved :
    (Instr.gaAdv.wf = true ∧ resetS.target = .composed) ∧
    (Instr.tick.wf = true ∧ (alone GateArray.fresh).target = .gateArrayAlone ∧
      Instr.tick ≠ .qint ∧ Instr.tick ≠ .gaAdv ∧ Instr.tick ≠ .gaHsf ∧ Instr.tick ≠ .gaVss) := by decide

theorem witness_StepRunsTheDecodedOperation :
    (issuing 0x1228#16 resetS).host.busy = none ∧
    (issuing 0x1228#16 resetS).host.program = [.word 0x1228#16] ∧
    decode 0x1228#16 = .instr (.setreg 2 40) := by decide

/-- One state for each clause. -/
theorem witness_StepContinuesTheProcedure :
    ((during .runvsLeave atVsync).target = .composed ∧
      (during .runvsLeave atVsync).host.busy = some .runvsLeave ∧
      (during .runvsLeave atVsync).crtc.vsc ≠ 0#8) ∧
    ((during .runvsAwait resetS).target = .composed ∧
      (during .runvsAwait resetS).host.busy = some .runvsAwait ∧
      (during .runvsAwait resetS).crtc.vsc = 0#8) ∧
    (during .waitTick resetS).host.busy = some .waitTick ∧
    (during .waitQuery resetS).host.busy = some .waitQuery ∧
    ((resetS.withProgram [.waitInt]).host.busy = none ∧
      (resetS.withProgram [.waitInt]).host.program = [.waitInt] ∧
      (resetS.withProgram [.waitInt]).target = .composed) := by decide

theorem witness_IdleStepChangesNothing : resetS.host.busy = none ∧ resetS.host.program = [] := by decide

theorem witness_EveryOperationAndEveryStepCompletes :
    ∀ index value, Instr.setreg 14 255 = .setreg index value → 0 ≤ value ∧ value ≤ 255 := by
  intro index value h; injection h with _ h; subst h; decide

/-- For ResetZeroesCountersAndGateArray, ResetTwiceIsResetOnce, NopsCountsTicks, SyncQueriesReadTheActiveCounters,
SetregWritesTheSelectedRegister and TickRunsTheSixSteps: a state of the composed block. -/
theorem witness_composed : atVsync.target = .composed ∧ atVsync.params.vccWrapScope = .row := by decide

theorem witness_NopsCountsTicks : resetS.target = .composed ∧
    exec .tick resetS = .next (done .tick resetS) ∧
    step (issuing 0x7000#16 resetS) = .next (stepped (issuing 0x7000#16 resetS)) := ⟨rfl, rfl, rfl⟩

theorem witness_RegistersChangeOnlyBySetreg :
    step (issuing 0x1228#16 resetS) = .next (stepped (issuing 0x1228#16 resetS)) ∧
    (stepped (issuing 0x1228#16 resetS)).regs ≠ (issuing 0x1228#16 resetS).regs := ⟨rfl, by decide⟩

theorem witness_SetregOutOfRangeIndexFails :
    (resetS.target = .composed ∧ (0 : Int) ≤ 255 ∧ (255 : Int) ≤ 255 ∧ (13 : Int) < 14 ∧ (-1 : Int) < 0) ∧
    ((0 : Int) ≤ 0 ∧ (13 : Int) ≤ 13) ∧ decode 0x1E00#16 = .instr (.setreg 14 0) := by decide

theorem witness_SetregValueOutsideAByteIsRefused : (-1 : Int) < 0 ∧ (255 : Int) < 256 := by decide

/-- Two register banks that agree where something reads them. -/
theorem witness_UnusedRegistersAreStoredAndInert :
    (∀ j : RegIndex, j ∈ ([0, 1, 2, 4, 6, 7, 9] : List RegIndex) →
      (#v[7, 5, 3, 9, 3, 9, 2, 2, 9, 1, 9, 9, 9, 9] : Vector Byte 14)[j] = resetS.regs[j]) ∧
    (∀ index value, Instr.tick ≠ .setreg index value) ∧
    exec .tick resetS = .next (done .tick resetS) ∧
    resetS.target = .composed ∧ (13 : RegIndex) ∈ ([3, 5, 8, 10, 11, 12, 13] : List RegIndex) :=
  ⟨by decide, by simp, rfl, rfl, by decide⟩

/-- R6 = 0 for the always-on border; R1 > R0 and R6 > R4, in bounds, for the border that is never on. -/
theorem witness_BorderQueryComparesHccAndVcc :
    ((resetS.writeReg 6 0).target = .composed ∧ (resetS.writeReg 6 0).regs[6] = 0#8) ∧
    (((resetS.writeReg 1 8).writeReg 6 4).withinBounds ∧
      ((resetS.writeReg 1 8).writeReg 6 4).regs[0].toNat < ((resetS.writeReg 1 8).writeReg 6 4).regs[1].toNat ∧
      ((resetS.writeReg 1 8).writeReg 6 4).regs[4].toNat <
        ((resetS.writeReg 1 8).writeReg 6 4).regs[6].toNat) := by
  unfold State.withinBounds; decide

/-- The unit alone, and a TICK of the composed block that begins with no `HSC` of 1. -/
theorem witness_GaAdvClearsThePendingInterrupt :
    (alone ⟨51, true, .disarmed⟩).target = .gateArrayAlone ∧
    resetS.target = .composed ∧ resetS.crtc.hsc ≠ 1#8 := by decide

/-- Ticks that arm `VSC`, from a `VSC` of 0 and from one of 1, and one that does not. -/
theorem witness_GaVssArmsTheCountdown :
    (alone ⟨5, false, .one⟩).target = .gateArrayAlone ∧ beforeVsync.target = .composed ∧
    (beforeVsync.crtc.hcc.toNat + 1 > beforeVsync.regs[0].toNat ∧
      beforeVsync.crtc.vlc.toNat + 1 > beforeVsync.regs[9].toNat ∧
      beforeVsync.crtc.vcc.toNat + 1 = beforeVsync.regs[7].toNat ∧ beforeVsync.crtc.vsc.toNat ≤ 1) ∧
    (beforeVsyncOne.target = .composed ∧ beforeVsyncOne.crtc.hcc.toNat + 1 > beforeVsyncOne.regs[0].toNat ∧
      beforeVsyncOne.crtc.vlc.toNat + 1 > beforeVsyncOne.regs[9].toNat ∧
      beforeVsyncOne.crtc.vcc.toNat + 1 = beforeVsyncOne.regs[7].toNat ∧ beforeVsyncOne.crtc.vsc = 1#8) ∧
    (¬ atVsync.crtc.hcc.toNat + 1 > atVsync.regs[0].toNat ∧ (done .tick atVsync).ga.vcd = .two) := by decide

theorem witness_GateArrayOperationsAreTotal :
    (alone ⟨63, true, .zero⟩).target = .gateArrayAlone ∧ (Instr.gaHsf = .gaAdv ∨ Instr.gaHsf = .gaHsf) := by
  decide

/-- A state for each row of the case table, at the edges of the ranges. -/
theorem witness_GaHsfFollowsTheCaseTable :
    (alone ⟨51, false, .two⟩).target = .gateArrayAlone ∧
    (alone ⟨51, false, .two⟩).params.gaOrder = .dividerFirst ∧
    (alone ⟨51, false, .two⟩).ga.vcd ≠ .one ∧ (alone ⟨51, false, .two⟩).ga.div.toNat = 51 ∧
    (alone ⟨63, false, .zero⟩).ga.vcd ≠ .one ∧ (alone ⟨63, false, .zero⟩).ga.div.toNat = 63 ∧
    (alone ⟨52, false, .disarmed⟩).ga.div.toNat ≠ 51 ∧ (alone ⟨52, false, .disarmed⟩).ga.div.toNat ≠ 63 ∧
    (alone ⟨30, false, .one⟩).ga.vcd = .one ∧ (alone ⟨30, false, .one⟩).ga.div.toNat ≤ 30 ∧
    31 ≤ (alone ⟨31, false, .one⟩).ga.div.toNat ∧ (alone ⟨50, false, .one⟩).ga.div.toNat ≤ 50 ∧
    52 ≤ (alone ⟨52, false, .one⟩).ga.div.toNat ∧ (alone ⟨62, false, .one⟩).ga.div.toNat ≤ 62 := by decide

theorem witness_GaHsfInTheOtherOrder :
    (aloneOther ⟨31, false, .one⟩).target = .gateArrayAlone ∧
    (aloneOther ⟨31, false, .one⟩).params.gaOrder = .countdownFirst ∧
    (aloneOther ⟨31, false, .one⟩).ga.vcd = .one ∧ (aloneOther ⟨31, false, .one⟩).ga.div.toNat < 32 ∧
    32 ≤ (aloneOther ⟨32, false, .one⟩).ga.div.toNat ∧ (aloneOther ⟨32, false, .two⟩).ga.vcd ≠ .one := by decide

theorem witness_InterruptOnEvery52ndFall :
    GateArray.fresh.div = 0#6 ∧ GateArray.fresh.vcd = .disarmed ∧ 0 < 52 := by decide

theorem witness_VsyncCorrectionOnTheSecondFall :
    (⟨51, false, .disarmed⟩ : GateArray).div.toNat ≤ 51 ∧ (⟨29, false, .two⟩ : GateArray).div.toNat ≤ 51 := by
  decide

/-- A row end, a scanline end inside a row with `VCC > R4`, and a tick that ends no scanline. -/
theorem witness_VerticalTotalTestInBothScopes :
    beforeVsync.target = .composed ∧
    (beforeVsync.crtc.hcc.toNat + 1 > beforeVsync.regs[0].toNat ∧
      beforeVsync.crtc.vlc.toNat + 1 > beforeVsync.regs[9].toNat) ∧
    (insideRow.crtc.hcc.toNat + 1 > insideRow.regs[0].toNat ∧
      insideRow.crtc.vlc.toNat + 1 ≤ insideRow.regs[9].toNat ∧
      insideRow.params.vccWrapScope = .line ∧ insideRow.crtc.vcc.toNat > insideRow.regs[4].toNat) ∧
    (resetS.crtc.hcc.toNat + 1 ≤ resetS.regs[0].toNat ∧ resetS.params.vccWrapScope = .row) := by decide

/-- An `HSC` of 1 and one of 0, in a tick that neither arms nor ends a scanline. -/
theorem witness_HsyncFallNeedsHscOne :
    beforeFall.target = .composed ∧ beforeFall.crtc.hsc = 1#8 ∧
    beforeFall.crtc.hcc.toNat + 1 ≠ beforeFall.regs[2].toNat ∧
    beforeFall.crtc.hcc.toNat + 1 ≤ beforeFall.regs[0].toNat ∧
    resetS.crtc.hsc ≠ 1#8 ∧ resetS.crtc.hcc.toNat + 1 ≤ resetS.regs[0].toNat := by decide

/-- A TICK that raises the interrupt, and a step that is no TICK. -/
theorem witness_InterruptHasOnlyItsTwoCauses :
    let s := issuing 0x0000#16 (stateS ⟨4, 0, 0, 1, 0, 4⟩ ⟨51, false, .disarmed⟩)
    let u := issuing 0x6000#16 (stateS ⟨5, 0, 0, 0, 0, 5⟩ ⟨0, true, .disarmed⟩)
    s.target = .composed ∧ s.params.gaOrder = .dividerFirst ∧ step s = .next (stepped s) ∧
    (stepped s).crtc.nops = s.crtc.nops + 1 ∧ (stepped s).ga.irq = true ∧
    u.target = .composed ∧ step u = .next (stepped u) ∧
    (stepped u).crtc.nops ≠ u.crtc.nops + 1 ∧ (stepped u).ga.irq = true :=
  ⟨rfl, rfl, rfl, rfl, rfl, rfl, rfl, by decide, rfl⟩

/-- 41_crtc.md R138: after tick 6 of configuration S, `SETREG 0, 2`. -/
theorem witness_LoweredBoundEndsTheScanline :
    (stateS ⟨6, 0, 0, 0, 0, 6⟩ ⟨1, false, .disarmed⟩).target = .composed ∧
    (2#8 : Byte).toNat < (stateS ⟨6, 0, 0, 0, 0, 6⟩ ⟨1, false, .disarmed⟩).crtc.hcc.toNat := by decide

theorem witness_AllZeroConfigurationStandsStill :
    let s := State.powerOn paramsS (Vector.replicate 14 0#8)
    s.target = .composed ∧ (∀ j : RegIndex, s.regs[j] = 0#8) ∧ s.atOrigin ∧
    s.crtc.hsc = 0#8 ∧ s.crtc.vsc = 0#8 := by
  unfold State.atOrigin; decide

/-- A step that fails: `FAULT` is set by it, and stays in the next. -/
theorem witness_FaultIsStickyAndMarksFailures :
    step (issuing 0xC000#16 resetS) = .next (stepped (issuing 0xC000#16 resetS)) ∧
    (stepped (issuing 0xC000#16 resetS)).fault = true ∧
    step (stepped (issuing 0xC000#16 resetS)) = .next (stepped (stepped (issuing 0xC000#16 resetS))) :=
  ⟨rfl, rfl, rfl⟩

/-- For ParametersAndUnitAreConstant and InvariantKeptByEveryStep: a state with the invariant, and its step. -/
theorem witness_InvariantKeptByEveryStep :
    (issuing 0x0000#16 atVsync).Inv ∧
    step (issuing 0x0000#16 atVsync) = .next (stepped (issuing 0x0000#16 atVsync)) := by
  refine ⟨⟨⟨by decide, by decide⟩, ⟨by decide, by decide⟩, ?_, ?_⟩, rfl⟩
  · intro f h; cases h
  · intro h; cases h

theorem witness_ParametersAndUnitAreConstant :
    step (issuing 0x2000#16 atVsync) = .next (stepped (issuing 0x2000#16 atVsync)) := rfl

theorem witness_OnlyTicksAndResetMoveTheCounters :
    exec (.setreg 0 2) atVsync = .next (done (.setreg 0 2) atVsync) ∧ Instr.setreg 0 2 ≠ .tick ∧
    Instr.setreg 0 2 ≠ .runvs ∧ Instr.setreg 0 2 ≠ .reset ∧ atVsync.target = .composed :=
  ⟨rfl, by decide, by decide, by decide, rfl⟩

theorem witness_StandAloneUnitHasOnlyGateArrayState :
    (issuing 0x9000#16 (alone ⟨51, false, .two⟩)).target = .gateArrayAlone ∧
    step (issuing 0x9000#16 (alone ⟨51, false, .two⟩)) =
      .next (stepped (issuing 0x9000#16 (alone ⟨51, false, .two⟩))) := ⟨rfl, rfl⟩

theorem witness_BoundsKeptByEveryStep :
    let s := issuing 0x0000#16 (stateS ⟨7, 1, 3, 0, 0, 0⟩ GateArray.fresh)
    s.withinBounds ∧ step s = .next (stepped s) ∧ s.regs[0].toNat ≤ (stepped s).regs[0].toNat ∧
    s.regs[9].toNat ≤ (stepped s).regs[9].toNat ∧ s.regs[4].toNat ≤ (stepped s).regs[4].toNat := by
  refine ⟨?_, rfl, ?_, ?_, ?_⟩
  · unfold State.withinBounds; decide
  all_goals decide

theorem witness_PositionAfterTicksIsThePhase : resetS.target = .composed ∧ resetS.atOrigin := by
  unfold State.atOrigin; decide

/-- R7 at both ends of its range, 1 and R4 + 1. -/
theorem witness_FirstVsyncStartTick : resetS.target = .composed ∧ resetS.atOrigin ∧ resetS.crtc.vsc = 0#8 ∧
    (1 ≤ (resetS.writeReg 7 1).regs[7].toNat ∧
      (resetS.writeReg 7 1).regs[7].toNat ≤ (resetS.writeReg 7 1).regs[4].toNat + 1) ∧
    (1 ≤ (resetS.writeReg 7 4).regs[7].toNat ∧
      (resetS.writeReg 7 4).regs[7].toNat ≤ (resetS.writeReg 7 4).regs[4].toNat + 1) ∧
    (0 < (resetS.regs[0].toNat + 1) * (resetS.regs[9].toNat + 1) * resetS.regs[7].toNat) := by
  unfold State.atOrigin; decide

theorem witness_RunvsBeginsWithATick : resetS.target = .composed ∧ resetS.crtc.vsc = 0#8 ∧
    atVsync.target = .composed ∧ atVsync.crtc.vsc ≠ 0#8 := by decide

/-- The second loop's last tick, and the first loop with the sync already over. -/
theorem witness_RunvsReturnsAtAVsyncStart :
    let s := during .runvsAwait beforeVsync
    let u := during .runvsLeave beforeVsync
    s.target = .composed ∧ s.host.busy = some .runvsAwait ∧ s.crtc.vsc = 0#8 ∧
    step s = .next (stepped s) ∧ (stepped s).host.busy = none ∧
    u.host.busy = some .runvsLeave ∧ step u = .next (stepped u) ∧ (stepped u).host.busy = none :=
  ⟨rfl, rfl, rfl, rfl, rfl, rfl, rfl, rfl⟩

theorem witness_RunvsFromTheOriginEnds :
    let s := issuing 0x7000#16 resetS
    s.target = .composed ∧ s.host.busy = none ∧ s.host.program = [.word 0x7000#16] ∧ s.atOrigin ∧
    s.crtc.vsc = 0#8 ∧ 1 ≤ s.regs[7].toNat ∧ s.regs[7].toNat ≤ s.regs[4].toNat + 1 ∧
    1 < (s.regs[0].toNat + 1) * (s.regs[9].toNat + 1) * s.regs[7].toNat := by
  unfold State.atOrigin; decide

/-- R7 = 0, and R7 = R4 + 2. -/
theorem witness_RunvsHangsWithoutATrigger :
    let s := during .runvsAwait (resetS.writeReg 7 0)
    let u := during .runvsAwait (resetS.writeReg 7 5)
    (s.target = .composed ∧ s.host.busy = some .runvsAwait ∧ s.crtc.vsc = 0#8 ∧ s.withinBounds ∧
      s.regs[7].toNat = 0) ∧
    (u.host.busy = some .runvsAwait ∧ u.withinBounds ∧ u.regs[7].toNat > u.regs[4].toNat + 1) := by
  unfold State.withinBounds; decide

/-- R0 = 0 and R2 = 1: a scanline of one tick, shorter than `HSW = 2`. -/
theorem witness_TooWideAnHsyncNeverFalls :
    let s := (((stateS ⟨0, 0, 0, 2, 0, 1⟩ GateArray.fresh).writeReg 0 0).writeReg 2 1)
    s.target = .composed ∧ 1 ≤ s.regs[2].toNat ∧ s.regs[2].toNat ≤ s.regs[0].toNat + 1 ∧
    s.regs[0].toNat + 1 < s.params.hsw.pred.val + 1 ∧ s.crtc.hsc = s.params.hsw.toByte ∧
    s.crtc.hcc.toNat = s.regs[2].toNat % (s.regs[0].toNat + 1) := by decide

end Sys2Proof.Tests
end

section
/-! The rules of one step: what `step`, `runProgram` and `runWord` answer in each case that a hypothesis about the host
or the decoder picks out, and the statement of the step's scope (00_scope.md R3) settled by them. -/

namespace Sys2Proof.Machine

theorem step_of_not_busy {s : State} (idle : s.host.busy = none) : step s = runProgram s := by
  rw [step, idle]

theorem runProgram_of_cons {s : State} {x : HostItem} {rest : List HostItem}
    (items : s.host.program = x :: rest) : runProgram s = runItem x (s.withProgram rest) := by
  rw [runProgram, items]

theorem runWord_of_decode_instr {w : CmdWord} {i : Instr} (decoded : decode w = .instr i) (s : State) :
    runWord w s = exec i s := by
  rw [runWord, decoded]

/-- Settles O7: the host's side hands the word to the decoder, and the decoder's operation to `exec`. -/
theorem stepRunsTheDecodedOperation : Obligations.StepRunsTheDecodedOperation := by
  intro s w rest i idle items decoded
  calc step s = runProgram s := step_of_not_busy idle
    _ = runItem (.word w) (s.withProgram rest) := runProgram_of_cons items
    _ = runWord w (s.withProgram rest) := rfl
    _ = exec i (s.withProgram rest) := runWord_of_decode_instr decoded _

end Sys2Proof.Machine
end

section
/-! Who writes the register bank (10_state.md R31, R33). TICK, the procedures and every operation but SETREG keep it; a
SETREG that does not fail writes one register and nothing else of the block. -/

namespace Sys2Proof.Machine

variable {s t : State} {i : Instr}

theorem byteOf_eq_some {value : Int} {v : Byte} : byteOf value = some v ↔ value = (v.toNat : Int) := by
  constructor
  · intro h
    by_cases range : 0 ≤ value ∧ value ≤ 255
    · rw [byteOf, if_pos range, Option.some_inj] at h
      subst h
      rw [BitVec.toNat_ofInt]
      omega
    · rw [byteOf, if_neg range] at h
      cases h
  · rintro rfl
    exact byteOf_toNat v

theorem proceed_regs (p : Procedure) (s : State) : (proceed p s).regs = s.regs := by
  obtain ⟨b, a, ticks⟩ | ⟨b, a, waits⟩ := proceed_block p s
  · simp [ticks]
  · simp [waits]

theorem resume_regs (p : Procedure) (s : State) : (resume p s).regs = s.regs := by
  cases unit : s.target with
  | composed => rw [resume, unit]; exact proceed_regs p s
  | gateArrayAlone => simp [resume, unit]

theorem exec_regs_of_not_setreg (notSetreg : ∀ index value, i ≠ .setreg index value)
    (h : exec i s = .next t) : t.regs = s.regs := by
  cases effect_of_exec h with
  | setreg index value r v isSetreg => exact absurd isSetreg (notSetreg index value)
  | runvs => exact proceed_regs .runvsLeave (s.withAnswer .nothing)
  | _ => simp

/-- A SETREG fails, or its operands are a register and a byte and it writes that byte there. -/
theorem exec_setreg_cases {index value : Int} (h : exec (.setreg index value) s = .next t) :
    (∃ f, t = s.raise f) ∨
    ∃ (r : RegIndex) (v : Byte), index = (r.val : Int) ∧ value = (v.toNat : Int) ∧
      t = (s.writeReg r v).withAnswer .nothing := by
  rw [exec, execSetreg] at h
  cases isByte : byteOf value with
  | none => rw [isByte] at h; cases h
  | some v =>
    rw [isByte] at h
    obtain ⟨-, rfl⟩ | ⟨-, rfl⟩ := onTarget_eq_next h
    · cases isIndex : regIndexOf index with
      | none => exact .inl ⟨_, by rw [setRegister, isIndex]⟩
      | some r =>
        exact .inr ⟨r, v, regIndexOf_eq_some.mp isIndex, byteOf_eq_some.mp isByte,
          by rw [setRegister, isIndex]⟩
    · exact .inl ⟨_, rfl⟩

/-- An operation that changes the register bank is a SETREG that did not fail. -/
theorem setreg_of_exec_regs_ne (h : exec i s = .next t) (changed : t.regs ≠ s.regs) :
    ∃ (r : RegIndex) (v : Byte), i = .setreg (r.val : Int) (v.toNat : Int) ∧
      t = (s.writeReg r v).withAnswer .nothing := by
  by_cases isSetreg : ∃ index value, i = .setreg index value
  · obtain ⟨index, value, rfl⟩ := isSetreg
    obtain ⟨f, rfl⟩ | ⟨r, v, rfl, rfl, written⟩ := exec_setreg_cases h
    · exact absurd (s.raise_regs f) changed
    · exact ⟨r, v, rfl, written⟩
  · exact absurd (exec_regs_of_not_setreg (fun index value e => isSetreg ⟨index, value, e⟩) h) changed

/-- Settles O14: of the things a step can be, only a decoded operation can change the bank, and of the operations only
SETREG. -/
theorem registersChangeOnlyBySetreg : Obligations.RegistersChangeOnlyBySetreg := by
  intro s t h changed
  obtain ⟨p, -, rfl⟩ | ⟨-, -, rfl⟩ | ⟨rest, -, -, rfl⟩ | ⟨w, rest, -, -, -, rfl⟩ |
    ⟨w, rest, i, idle, items, decoded, ran⟩ := step_cases h
  · exact absurd (resume_regs p s) changed
  · exact absurd rfl changed
  · exact absurd (resume_regs .waitTick (s.withProgram rest)) changed
  · exact absurd rfl changed
  · obtain ⟨r, v, rfl, rfl⟩ := setreg_of_exec_regs_ne ran changed
    exact ⟨idle, rfl, rfl, w, rest, r, v, items, decoded, rfl⟩

end Sys2Proof.Machine
end

section
/-! Which registers are read (10_state.md R29). Replacing the bank by one that agrees on the registers 0, 1, 2, 4, 6, 7
and 9 commutes with TICK, with RUNVS and with every operation but SETREG. -/

namespace Sys2Proof.Machine

/-- Replace the whole register bank. -/
def State.withRegs (s : State) (r : Vector Byte 14) : State := { s with regs := r }

section
variable (s : State) (r : Vector Byte 14)

@[simp] theorem State.withRegs_regs : (s.withRegs r).regs = r := by rfl
@[simp] theorem State.withRegs_crtc : (s.withRegs r).crtc = s.crtc := by rfl
@[simp] theorem State.withRegs_ga : (s.withRegs r).ga = s.ga := by rfl
@[simp] theorem State.withRegs_fault : (s.withRegs r).fault = s.fault := by rfl
@[simp] theorem State.withRegs_params : (s.withRegs r).params = s.params := by rfl
@[simp] theorem State.withRegs_target : (s.withRegs r).target = s.target := by rfl
@[simp] theorem State.withRegs_host : (s.withRegs r).host = s.host := by rfl
@[simp] theorem State.withRegs_vsyncOut : (s.withRegs r).vsyncOut = s.vsyncOut := by rfl
@[simp] theorem State.withRegs_vscAtLineEnd : (s.withRegs r).vscAtLineEnd = s.vscAtLineEnd := by rfl

end

/-- The bank `r` holds what the bank of `s` holds, in each register that some operation reads. -/
def State.ReadsAlike (s : State) (r : Vector Byte 14) : Prop :=
  ∀ j : RegIndex, j ∈ ([0, 1, 2, 4, 6, 7, 9] : List RegIndex) → r[j] = s.regs[j]

theorem Crtc.eq_of_parts {c d : Crtc} (hcc : c.hcc = d.hcc) (vlc : c.vlc = d.vlc) (vcc : c.vcc = d.vcc)
    (hsc : c.hsc = d.hsc) (vsc : c.vsc = d.vsc) (nops : c.nops = d.nops) : c = d := by
  cases c; cases d; simp_all

/-- Two states are equal if the counters and the Gate Array are, and all that a TICK keeps. -/
theorem State.eq_of_sameOutside {s t : State} (outside : SameOutside s t) (crtc : t.crtc = s.crtc)
    (ga : t.ga = s.ga) : t = s := by
  obtain ⟨regs, fault, params, target, host⟩ := outside
  cases s; cases t; simp_all

variable {s t : State} {i : Instr} {r : Vector Byte 14}

theorem State.ReadsAlike.reg (alike : s.ReadsAlike r) {j : RegIndex}
    (read : j ∈ ([0, 1, 2, 4, 6, 7, 9] : List RegIndex)) : (s.withRegs r).reg j = s.reg j := alike j read

theorem State.ReadsAlike.rowEnds_withRegs (alike : s.ReadsAlike r) : (s.withRegs r).rowEnds ↔ s.rowEnds := by
  simp [State.rowEnds, alike.reg]

theorem State.ReadsAlike.vsyncStarts_withRegs (alike : s.ReadsAlike r) :
    (s.withRegs r).vsyncStarts ↔ s.vsyncStarts := by
  simp [State.vsyncStarts, alike.rowEnds_withRegs, alike.reg]

theorem State.ReadsAlike.tick_crtc_withRegs (alike : s.ReadsAlike r) :
    (s.withRegs r).tick.crtc = s.tick.crtc := by
  apply Crtc.eq_of_parts
  · simp [State.tick_hcc, alike.reg]
  · simp [State.tick_vlc, alike.rowEnds_withRegs, alike.reg]
  · simp [State.tick_vcc, alike.rowEnds_withRegs, alike.reg]
  · simp [State.tick_hsc, alike.reg]
  · simp [State.tick_vsc, alike.vsyncStarts_withRegs, alike.reg]
  · simp [State.tick_nops]

theorem State.ReadsAlike.tick_ga_withRegs (alike : s.ReadsAlike r) : (s.withRegs r).tick.ga = s.tick.ga := by
  simp [State.tick_ga, alike.vsyncStarts_withRegs]

theorem State.ReadsAlike.tick_withRegs (alike : s.ReadsAlike r) : (s.withRegs r).tick = s.tick.withRegs r := by
  have outside : SameOutside (s.tick.withRegs r) (s.withRegs r).tick := by constructor <;> simp
  exact State.eq_of_sameOutside outside (by simpa using alike.tick_crtc_withRegs)
    (by simpa using alike.tick_ga_withRegs)

theorem State.ReadsAlike.borderOut_withRegs (alike : s.ReadsAlike r) :
    (s.withRegs r).borderOut = s.borderOut := by
  simp [State.borderOut, alike.reg]

theorem State.ReadsAlike.runvsAwait_withRegs (alike : s.ReadsAlike r) :
    runvsAwait (s.withRegs r) = (runvsAwait s).withRegs r := by
  rw [runvsAwait, runvsAwait, alike.tick_withRegs, State.withRegs_vsyncOut, State.withRegs_vsyncOut]
  by_cases active : s.vsyncOut = true
  · rw [if_pos active, if_pos active]; rfl
  · rw [if_neg active, if_neg active]; rfl

theorem State.ReadsAlike.runvsLeave_withRegs (alike : s.ReadsAlike r) :
    runvsLeave (s.withRegs r) = (runvsLeave s).withRegs r := by
  rw [runvsLeave, runvsLeave, alike.tick_withRegs, alike.runvsAwait_withRegs, State.withRegs_vsyncOut]
  by_cases active : s.vsyncOut = true
  · rw [if_pos active, if_pos active]; rfl
  · rw [if_neg active, if_neg active]

theorem State.ReadsAlike.plainEffect_withRegs (alike : s.ReadsAlike r) :
    plainEffect i (s.withRegs r) = (plainEffect i s).withRegs r := by
  cases i with
  | tick => exact congrArg (·.withAnswer .nothing) alike.tick_withRegs
  | qborder => exact congrArg (fun b => (s.withRegs r).withAnswer (.bit b)) alike.borderOut_withRegs
  | runvs =>
    have alike' : (s.withAnswer .nothing).ReadsAlike r := alike
    exact alike'.runvsLeave_withRegs
  | _ => rfl

theorem State.ReadsAlike.exec_withRegs (alike : s.ReadsAlike r) (notSetreg : ∀ index value, i ≠ .setreg index value)
    (h : exec i s = .next t) : exec i (s.withRegs r) = .next (t.withRegs r) := by
  cases takes : s.target.takes i with
  | true =>
    rw [exec_of_takes takes notSetreg] at h
    injection h with h
    rw [← h, ← alike.plainEffect_withRegs]
    exact exec_of_takes takes notSetreg
  | false =>
    have operands : ∀ index value, i = .setreg index value → 0 ≤ value ∧ value ≤ 255 :=
      fun index value e => absurd e (notSetreg index value)
    rw [exec_of_not_takes takes operands] at h
    injection h with h
    rw [← h]
    exact exec_of_not_takes takes operands

/-- Settles O18: every operation but SETREG commutes with replacing the registers that nothing reads, and SETREG stores
its value in any register. -/
theorem unusedRegistersAreStoredAndInert : Obligations.UnusedRegistersAreStoredAndInert := by
  constructor
  · intro s t i r alike notSetreg ran
    exact State.ReadsAlike.exec_withRegs alike notSetreg ran
  · intro s j v composed _
    have stored : (s.writeReg j v).reg j = v := by simp
    exact ⟨_, exec_setreg composed j v, stored⟩

end Sys2Proof.Machine
end

section
/-! The index of SETREG (20_memory.md R61). The integers that select a register are 0 to 13; an operation whose index is
any other fails before the bank is written, and a command word can carry an index of 0 to 15 only. -/

namespace Sys2Proof.Machine

variable {s : State} {index value : Int}

theorem exists_byte_of_range (low : 0 ≤ value) (high : value ≤ 255) : ∃ v : Byte, value = (v.toNat : Int) :=
  ⟨_, byteOf_eq_some.mp (if_pos ⟨low, high⟩)⟩

theorem exists_regIndex_of_range (low : 0 ≤ index) (high : index ≤ 13) :
    ∃ r : RegIndex, index = (r.val : Int) :=
  ⟨_, regIndexOf_eq_some.mp (dif_pos ⟨low, high⟩)⟩

/-- Beside `exec_setreg`, which writes: the index selects no register. -/
theorem exec_setreg_of_index_outside (composed : s.target = .composed) (outside : index < 0 ∨ 13 < index)
    (v : Byte) : exec (.setreg index (v.toNat : Int)) s = .next (s.raise (.invalidRegisterIndex index)) := by
  simp only [exec, execSetreg, byteOf_toNat]
  rw [onTarget_of_takes (by rw [composed]; rfl), setRegister, regIndexOf_eq_none.mpr outside]

theorem index_range_of_decode_setreg {w : CmdWord} (decoded : decode w = .instr (.setreg index value)) :
    0 ≤ index ∧ index ≤ 15 := by
  obtain ⟨isField, -⟩ := decode_setreg decoded
  have fourBits : (idxField w).toNat < 2 ^ 4 := (idxField w).isLt
  omega

/-- Settles O16: once the value is known to be a byte, the index alone decides whether SETREG fails or writes, and the
decoder's index is a field of four bits. -/
theorem setregOutOfRangeIndexFails : Obligations.SetregOutOfRangeIndexFails := by
  refine ⟨?fails, ?writes, ?word⟩
  case fails =>
    intro s index value composed low high outside
    obtain ⟨v, rfl⟩ := exists_byte_of_range low high
    exact exec_setreg_of_index_outside composed outside v
  case writes =>
    intro s index value composed low high indexLow indexHigh
    obtain ⟨v, rfl⟩ := exists_byte_of_range low high
    obtain ⟨r, rfl⟩ := exists_regIndex_of_range indexLow indexHigh
    exact ⟨_, exec_setreg composed r v, rfl, rfl⟩
  case word =>
    intro w index value decoded
    exact index_range_of_decode_setreg decoded

end Sys2Proof.Machine
end

section
/-! One hsync fall of the Gate Array (40_gate_array.md R101 to R103), and a run of them with no vertical-sync start
between (R109). The order of GA_HSF's parts matters only where the countdown is at 1. -/

namespace Sys2Proof.Machine

variable {g : GateArray}

/-! ### The parts of GA_HSF -/

@[simp] theorem GateArray.dividerPart_vcd (g : GateArray) : g.dividerPart.vcd = g.vcd := by
  rw [g.dividerPart_eq]

theorem GateArray.dividerPart_irq (g : GateArray) :
    g.dividerPart.irq = true ↔ g.irq = true ∨ g.div.toNat = 51 := by
  have period : g.div = 51#6 ↔ g.div.toNat = 51 := by bv_omega
  simp [g.dividerPart_eq, period]

theorem GateArray.dividerPart_div_toNat (range : g.div.toNat ≤ 51) :
    g.dividerPart.div.toNat = (g.div.toNat + 1) % 52 := by
  rw [g.dividerPart_eq]
  by_cases period : g.div = 51#6
  · simp [period]
  · simp only [if_neg period]
    bv_omega

/-- Where the correction does not fire, GA_HSF counts the divider and a countdown of 2, in either order. -/
theorem GateArray.hsyncFall_of_ne_one (o : GaOrder) (noCorrection : g.vcd ≠ .one) : g.hsyncFall o =
    { g.dividerPart with vcd := if g.vcd = .two then .one else g.vcd } := by
  cases o with
  | dividerFirst =>
    have kept : g.dividerPart.vcd ≠ .one := by simpa using noCorrection
    rw [hsyncFall, countdownPart_of_ne_one _ kept, dividerPart_vcd]
  | countdownFirst =>
    rw [hsyncFall, countdownPart_of_ne_one _ noCorrection, dividerPart_eq, dividerPart_eq]

/-- Where the correction fires, the divider has been counted before it (decision D9). -/
theorem GateArray.hsyncFall_dividerFirst_of_one (correction : g.vcd = .one) : g.hsyncFall .dividerFirst =
    { div := 0#6, irq := g.dividerPart.irq || decide (g.dividerPart.div < divSplit), vcd := .disarmed } := by
  have kept : g.dividerPart.vcd = .one := by simpa using correction
  rw [hsyncFall, countdownPart_of_one _ kept]

theorem GateArray.hsyncFall_vcd_of_one (o : GaOrder) (correction : g.vcd = .one) :
    (g.hsyncFall o).vcd = .disarmed := by
  cases o with
  | dividerFirst => rw [hsyncFall_dividerFirst_of_one correction]
  | countdownFirst => rw [hsyncFall, dividerPart_vcd, countdownPart_of_one _ correction]

theorem GateArray.hsyncFall_vcd_ne_two (g : GateArray) (o : GaOrder) : (g.hsyncFall o).vcd ≠ .two := by
  by_cases correction : g.vcd = .one
  · simp [hsyncFall_vcd_of_one o correction]
  · rw [hsyncFall_of_ne_one o correction]
    by_cases armed : g.vcd = .two <;> simp [armed]

/-! ### One fall: GA_ADV, then GA_HSF -/

theorem GateArray.fall_div_toNat (o : GaOrder) (range : g.div.toNat ≤ 51) (noCorrection : g.vcd ≠ .one) :
    (g.advance.hsyncFall o).div.toNat = (g.div.toNat + 1) % 52 := by
  rw [hsyncFall_of_ne_one o (g := g.advance) noCorrection]
  exact dividerPart_div_toNat (g := g.advance) range

theorem GateArray.fall_irq (o : GaOrder) (noCorrection : g.vcd ≠ .one) :
    (g.advance.hsyncFall o).irq = true ↔ g.div.toNat = 51 := by
  rw [hsyncFall_of_ne_one o (g := g.advance) noCorrection]
  simp [dividerPart_irq]

theorem GateArray.fall_vcd_of_disarmed (o : GaOrder) (disarmed : g.vcd = .disarmed) :
    (g.advance.hsyncFall o).vcd = .disarmed := by
  rw [hsyncFall_of_ne_one o (g := g.advance) (by simp [disarmed])]
  simp [disarmed]

theorem GateArray.fall_vcd_of_two (o : GaOrder) (armed : g.vcd = .two) :
    (g.advance.hsyncFall o).vcd = .one := by
  rw [hsyncFall_of_ne_one o (g := g.advance) (by simp [armed])]
  simp [armed]

theorem GateArray.fall_div_of_one (correction : g.vcd = .one) : (g.advance.hsyncFall .dividerFirst).div = 0#6 := by
  rw [hsyncFall_dividerFirst_of_one (g := g.advance) correction]

/-- The fall of the correction (R103's rows for a countdown of 1): the interrupt is decided on the counted divider. -/
theorem GateArray.fall_irq_of_one (range : g.div.toNat ≤ 51) (correction : g.vcd = .one) :
    (g.advance.hsyncFall .dividerFirst).irq = true ↔
      g.div.toNat = 51 ∨ (g.div.toNat + 1) % 52 < 32 := by
  have counted := dividerPart_div_toNat (g := g.advance) range
  rw [hsyncFall_dividerFirst_of_one (g := g.advance) correction]
  simp [dividerPart_irq, BitVec.lt_def, counted, divSplit]

/-! ### A run of falls -/

theorem GateArray.falls_succ (g : GateArray) (o : GaOrder) (n : Nat) :
    g.falls o (n + 1) = (g.falls o n).advance.hsyncFall o := rfl

/-- The divider counts the falls modulo 52, and nothing arms the countdown. -/
theorem GateArray.falls_of_disarmed (o : GaOrder) (zero : g.div = 0#6) (disarmed : g.vcd = .disarmed) (n : Nat) :
    (g.falls o n).div.toNat = n % 52 ∧ (g.falls o n).vcd = .disarmed := by
  induction n with
  | zero => exact ⟨by simp [falls, zero], disarmed⟩
  | succ n ih =>
    obtain ⟨count, still⟩ := ih
    have range : (g.falls o n).div.toNat ≤ 51 := by omega
    have counted := fall_div_toNat o range (by simp [still])
    rw [falls_succ]
    exact ⟨by omega, fall_vcd_of_disarmed o still⟩

/-- Settles O27: a fall raises the interrupt exactly when the falls before it leave the divider at 51. -/
theorem interruptOnEvery52ndFall : Obligations.InterruptOnEvery52ndFall := by
  intro o g n zero disarmed
  obtain ⟨count, still⟩ := GateArray.falls_of_disarmed o zero disarmed n
  refine ⟨count, still, fun positive => ?_⟩
  obtain ⟨m, rfl⟩ := Nat.exists_eq_succ_of_ne_zero positive.ne'
  obtain ⟨before, idle⟩ := GateArray.falls_of_disarmed o zero disarmed m
  rw [GateArray.falls_succ, GateArray.fall_irq o (by simp [idle]), before]
  omega

/-- Settles O28: the first fall counts 2 down to 1, so the correction fires in the second, on a divider that the first
has counted once. -/
theorem vsyncCorrectionOnTheSecondFall : Obligations.VsyncCorrectionOnTheSecondFall := by
  intro g range
  have vcdOne : (g.vsyncStart.falls .dividerFirst 1).vcd = .one :=
    GateArray.fall_vcd_of_two .dividerFirst g.vsyncStart_vcd
  have divOne : (g.vsyncStart.falls .dividerFirst 1).div.toNat = (g.div.toNat + 1) % 52 :=
    GateArray.fall_div_toNat (g := g.vsyncStart) .dividerFirst range (by simp)
  have rangeOne : (g.vsyncStart.falls .dividerFirst 1).div.toNat ≤ 51 := by omega
  refine ⟨vcdOne, divOne, ?vcd, ?div, ?irq⟩
  case vcd => exact GateArray.hsyncFall_vcd_of_one _ vcdOne
  case div => exact GateArray.fall_div_of_one vcdOne
  case irq =>
    rw [GateArray.falls_succ, GateArray.fall_irq_of_one rangeOne vcdOne, divOne]
    omega

end Sys2Proof.Machine
end

section
/-! The Gate Array's operations on both units (40_gate_array.md R100, R104, R107). The stand-alone unit takes them as
words; in the composed block GA_ADV and GA_VSS are parts of TICK, and their words raise InvalidCommand
(30_encoding.md R86). -/

namespace Sys2Proof.Machine

variable {s : State} {i : Instr}

/-! ### The events inside TICK -/

/-- GA_ADV is TICK's first sub-step (41_crtc.md R121), and doing it twice is doing it once. -/
theorem State.tick_withGa_advance (s : State) : (s.withGa s.ga.advance).tick = s.tick := by
  have once : tickAdvance (s.withGa s.ga.advance) = tickAdvance s := rfl
  rw [State.tick, once, State.withGa_crtc]
  rfl

theorem State.tick_irq_of_no_fall (noFall : s.crtc.hsc ≠ 1#8) : s.tick.ga.irq = false := by
  rw [s.tick_ga]
  by_cases starts : s.vsyncStarts
  · simp only [if_pos starts, if_neg noFall, GateArray.vsyncStart_irq, GateArray.advance_irq]
  · simp only [if_neg starts, if_neg noFall, GateArray.advance_irq]

theorem State.tick_vcd_of_vsyncStarts (starts : s.vsyncStarts) : s.tick.ga.vcd = .two := by
  simp only [s.tick_ga, if_pos starts, GateArray.vsyncStart_vcd]

/-- Of the events only GA_VSS brings the countdown to 2: GA_ADV leaves it, and GA_HSF never ends there. -/
theorem State.vcd_of_tick_vcd_eq_two (noStart : ¬ s.vsyncStarts) (two : s.tick.ga.vcd = .two) :
    s.ga.vcd = .two := by
  simp only [s.tick_ga, if_neg noStart] at two
  by_cases fall : s.crtc.hsc = 1#8
  · rw [if_pos fall] at two
    exact absurd two (GateArray.hsyncFall_vcd_ne_two _ _)
  · rwa [if_neg fall] at two

/-- The condition of R130 on the registers, with `VSC` as it is before the scanline end's decrement. -/
theorem State.vsyncStarts_iff (s : State) : s.vsyncStarts ↔
    ((s.crtc.hcc.toNat + 1 > s.regs[0].toNat ∧ s.crtc.vlc.toNat + 1 > s.regs[9].toNat) ∧
      s.crtc.vcc.toNat + 1 = s.regs[7].toNat) ∧ s.crtc.vsc.toNat ≤ 1 := by
  rw [State.vsyncStarts, s.vscAtLineEnd_eq_zero, ← and_assoc]
  rfl

/-! ### The words on each unit -/

theorem exec_tick_of_composed (composed : s.target = .composed) :
    exec .tick s = .next (s.tick.withAnswer .nothing) :=
  exec_of_takes (by rw [composed]; rfl) nofun

/-- The word of an event is reserved on the composed block (decision D23). -/
theorem exec_event_of_composed (composed : s.target = .composed) (event : i = .gaAdv ∨ i = .gaHsf ∨ i = .gaVss) :
    exec i s = .next (s.raise (.invalidCommand (encode i))) := by
  obtain rfl | rfl | rfl := event
  all_goals exact exec_of_not_takes (by rw [composed]; rfl) nofun

/-- The stand-alone unit takes the four words of R86; each sets the Gate Array and an answer that is no failure. -/
theorem exec_of_gateArrayAlone (unit : s.target = .gateArrayAlone)
    (listed : i = .gaAdv ∨ i = .gaHsf ∨ i = .gaVss ∨ i = .qint) :
    ∃ g a, exec i s = .next ((s.withGa g).withAnswer a) ∧ ∀ f, a ≠ .failed f := by
  obtain rfl | rfl | rfl | rfl := listed
  · exact ⟨s.ga.advance, .nothing, exec_of_takes (by rw [unit]; rfl) nofun, nofun⟩
  · exact ⟨s.ga.hsyncFall s.params.gaOrder, .nothing, exec_of_takes (by rw [unit]; rfl) nofun, nofun⟩
  · exact ⟨s.ga.vsyncStart, .nothing, exec_of_takes (by rw [unit]; rfl) nofun, nofun⟩
  · exact ⟨s.ga, .bit s.intOut, exec_of_takes (by rw [unit]; rfl) nofun, nofun⟩

/-- Settles O22: the clause on TICK is GA_ADV's idempotence at TICK's first sub-step. -/
theorem gaAdvClearsThePendingInterrupt : Obligations.GaAdvClearsThePendingInterrupt := by
  refine ⟨by decide, ?alone, ?tick, ?host⟩
  case alone =>
    intro s unit
    exact exec_of_takes (by rw [unit]; rfl) nofun
  case tick =>
    intro s composed
    have cleared : exec .tick (s.withGa s.ga.advance) = .next (s.tick.withAnswer .nothing) := by
      rw [exec_tick_of_composed (s := s.withGa s.ga.advance) composed, s.tick_withGa_advance]
    refine ⟨_, exec_tick_of_composed composed, cleared, fun noFall => ?_⟩
    rw [State.withAnswer_ga, State.tick_irq_of_no_fall noFall]
  case host =>
    intro s composed
    exact ⟨_, exec_event_of_composed composed (.inl rfl), rfl, rfl⟩

/-- Settles O23: the statement's arming condition is the one under which TICK calls GA_VSS. -/
theorem gaVssArmsTheCountdown : Obligations.GaVssArmsTheCountdown := by
  refine ⟨by decide, ?alone, ?tick, ?host⟩
  case alone =>
    intro s unit
    exact exec_of_takes (by rw [unit]; rfl) nofun
  case tick =>
    intro s composed armed
    have armed_iff : armed = true ↔ s.vsyncStarts := by
      simp only [armed, s.vsyncStarts_iff, Bool.and_eq_true, decide_eq_true_eq]
    refine ⟨_, exec_tick_of_composed composed, fun isArmed => ⟨?_, ?_⟩, fun notArmed two => ?_⟩
    · rw [State.withAnswer_crtc, s.tick_vsc, if_pos (armed_iff.mp isArmed), toByte_toNat]
    · rw [State.withAnswer_ga, State.tick_vcd_of_vsyncStarts (armed_iff.mp isArmed)]
    · have noStart : ¬ s.vsyncStarts := fun starts => by simp [armed_iff.mpr starts] at notArmed
      rw [State.withAnswer_ga] at two
      exact State.vcd_of_tick_vcd_eq_two noStart two
  case host =>
    intro s composed
    exact ⟨_, exec_event_of_composed composed (.inr (.inr rfl)), rfl, rfl⟩

/-- Settles O24: each of the four replaces the Gate Array's state and the answer, and nothing else. -/
theorem gateArrayOperationsAreTotal : Obligations.GateArrayOperationsAreTotal := by
  intro s i unit listed
  obtain ⟨g, a, ran, noFailure⟩ := exec_of_gateArrayAlone unit listed
  exact ⟨_, ran, rfl, noFailure, rfl, rfl, rfl, rfl, rfl, rfl⟩

end Sys2Proof.Machine
end

section
/-! TICK on each counter, read as the unsigned integer that 00_scope.md R9 compares, and on each part of the Gate Array.
The guards of R126 and R128 keep every stored counter below 256, so no counter wraps. -/

namespace Sys2Proof.Machine

variable {s : State}

/-! ### The counters -/

/-- A count that a register bounds is stored as it is. -/
theorem toNat_ofNat_of_le_byte {n : Nat} {bound : Byte} (le : n ≤ bound.toNat) : (BitVec.ofNat 8 n).toNat = n := by
  have byte : bound.toNat < 256 := bound.isLt
  rw [BitVec.toNat_ofNat, Nat.mod_eq_of_lt (by omega)]

theorem State.tick_hcc_toNat (s : State) :
    s.tick.crtc.hcc.toNat = if s.lineEnds then 0 else s.crtc.hcc.toNat + 1 := by
  rw [s.tick_hcc]
  by_cases ends : s.lineEnds
  · rw [if_pos ends, if_pos ends]; rfl
  · rw [if_neg ends, if_neg ends, toNat_ofNat_of_le_byte (Nat.le_of_not_gt ends)]

theorem State.tick_hsc_toNat (s : State) : s.tick.crtc.hsc.toNat =
    if s.crtc.hcc.toNat + 1 = (s.reg 2).toNat then s.params.hsw.pred.val + 1
    else s.crtc.hsc.toNat - 1 := by
  rw [s.tick_hsc]
  by_cases arms : s.crtc.hcc.toNat + 1 = (s.reg 2).toNat
  · rw [if_pos arms, if_pos arms, toByte_toNat]
  · rw [if_neg arms, if_neg arms]
    by_cases idle : s.crtc.hsc = 0#8
    · simp [idle]
    · rw [if_neg idle]; bv_omega

theorem State.tick_vlc_toNat (s : State) : s.tick.crtc.vlc.toNat =
    if s.rowEnds then 0 else if s.lineEnds then s.crtc.vlc.toNat + 1 else s.crtc.vlc.toNat := by
  rw [s.tick_vlc]
  by_cases row : s.rowEnds
  · rw [if_pos row, if_pos row]; rfl
  · rw [if_neg row, if_neg row]
    by_cases line : s.lineEnds
    · have inside : ¬ s.crtc.vlc.toNat + 1 > (s.reg 9).toNat := fun above => row ⟨line, above⟩
      rw [if_pos line, if_pos line, toNat_ofNat_of_le_byte (Nat.le_of_not_gt inside)]
    · rw [if_neg line, if_neg line]

theorem State.tick_vcc_of_rowEnds (row : s.rowEnds) : s.tick.crtc.vcc.toNat =
    if s.crtc.vcc.toNat + 1 > (s.reg 4).toNat then 0 else s.crtc.vcc.toNat + 1 := by
  rw [s.tick_vcc, if_pos row]
  by_cases wraps : s.crtc.vcc.toNat + 1 > (s.reg 4).toNat
  · rw [if_pos wraps, if_pos wraps]; rfl
  · rw [if_neg wraps, if_neg wraps, toNat_ofNat_of_le_byte (Nat.le_of_not_gt wraps)]

/-- Inside a row only the scope `line` of the vertical-total test (R131) can change `VCC`, and only a `VCC` above R4. -/
theorem State.tick_vcc_of_not_rowEnds (noRow : ¬ s.rowEnds)
    (keeps : s.params.vccWrapScope = .row ∨ s.crtc.vcc.toNat ≤ (s.reg 4).toNat) :
    s.tick.crtc.vcc = s.crtc.vcc := by
  rw [s.tick_vcc, if_neg noRow, if_neg]
  rintro ⟨-, isLine, above⟩
  obtain isRow | inBounds := keeps
  · rw [isRow] at isLine; cases isLine
  · omega

theorem State.tick_vsc_toNat (s : State) : s.tick.crtc.vsc.toNat =
    if s.vsyncStarts then s.params.vsw.pred.val + 1
    else if s.lineEnds then s.crtc.vsc.toNat - 1 else s.crtc.vsc.toNat := by
  rw [s.tick_vsc]
  by_cases starts : s.vsyncStarts
  · rw [if_pos starts, if_pos starts, toByte_toNat]
  · rw [if_neg starts, if_neg starts]
    by_cases line : s.lineEnds
    · rw [if_pos line, if_pos line, s.vscAtLineEnd_toNat]
    · rw [if_neg line, if_neg line]

/-! ### The Gate Array -/

/-- The Gate Array in a TICK after GA_ADV and, in a TICK that begins with `HSC == 1`, GA_HSF (R121, R124). -/
def State.gaAfterHsync (s : State) : GateArray :=
  if s.crtc.hsc = 1#8 then s.ga.advance.hsyncFall s.params.gaOrder else s.ga.advance

theorem State.gaAfterHsync_of_fall (fall : s.crtc.hsc = 1#8) :
    s.gaAfterHsync = s.ga.advance.hsyncFall s.params.gaOrder := if_pos fall

theorem State.gaAfterHsync_of_no_fall (noFall : s.crtc.hsc ≠ 1#8) : s.gaAfterHsync = s.ga.advance :=
  if_neg noFall

theorem State.tick_ga_of_vsyncStarts (starts : s.vsyncStarts) : s.tick.ga = s.gaAfterHsync.vsyncStart := by
  simp only [s.tick_ga, if_pos starts]; rfl

theorem State.tick_ga_of_not_vsyncStarts (noStart : ¬ s.vsyncStarts) : s.tick.ga = s.gaAfterHsync := by
  simp only [s.tick_ga, if_neg noStart]; rfl

theorem State.tick_div (s : State) : s.tick.ga.div = s.gaAfterHsync.div := by
  by_cases starts : s.vsyncStarts
  · rw [tick_ga_of_vsyncStarts starts, GateArray.vsyncStart_div]
  · rw [tick_ga_of_not_vsyncStarts starts]

theorem State.tick_irq (s : State) : s.tick.ga.irq = s.gaAfterHsync.irq := by
  by_cases starts : s.vsyncStarts
  · rw [tick_ga_of_vsyncStarts starts, GateArray.vsyncStart_irq]
  · rw [tick_ga_of_not_vsyncStarts starts]

theorem State.not_vsyncStarts_of_not_lineEnds (inside : s.crtc.hcc.toNat + 1 ≤ (s.reg 0).toNat) :
    ¬ s.vsyncStarts := fun starts => Nat.not_lt.mpr inside starts.1.1

/-- Settles O29: each clause is what TICK does to one part of the state. -/
theorem tickRunsTheSixSteps : Obligations.TickRunsTheSixSteps := by
  intro s composed h l c lineEnd rowEnd vsyncStart g fallen
  have line_iff : lineEnd = true ↔ s.lineEnds := decide_eq_true_iff
  have row_iff : rowEnd = true ↔ s.rowEnds := by
    simp only [rowEnd, Bool.and_eq_true, decide_eq_true_eq, line_iff]; rfl
  have starts_iff : vsyncStart = true ↔ s.vsyncStarts := by
    simp only [vsyncStart, Bool.and_eq_true, decide_eq_true_eq, row_iff, State.vsyncStarts,
      s.vscAtLineEnd_eq_zero, and_assoc]
    rfl
  refine ⟨_, exec_tick_of_composed composed, ?parts⟩
  simp only [State.withAnswer_crtc, State.withAnswer_ga, State.withAnswer_regs, State.withAnswer_fault,
    State.withAnswer_params, State.withAnswer_target, line_iff, row_iff, starts_iff]
  refine ⟨s.tick_nops, s.tick_hcc_toNat, s.tick_hsc_toNat, s.tick_vlc_toNat, fun isRow => ?vcc, s.tick_vsc_toNat,
    s.tick_ga, s.tick_regs, s.tick_fault, s.tick_params, s.tick_target, ?host⟩
  case vcc =>
    by_cases row : s.rowEnds
    · rw [if_pos row]; exact State.tick_vcc_of_rowEnds row
    · rw [if_neg row]; exact congrArg BitVec.toNat (State.tick_vcc_of_not_rowEnds row (.inl isRow))
  case host => rw [State.withAnswer, s.tick_host]

/-- Settles O32: GA_HSF stands in TICK exactly at `HSC == 1`, and GA_VSS after it moves the countdown only. -/
theorem hsyncFallNeedsHscOne : Obligations.HsyncFallNeedsHscOne := by
  intro s composed
  refine ⟨_, exec_tick_of_composed composed, fun noArm => ?hsc, fun noFall => ?still, fun fall => ?fallen⟩
  case hsc => exact s.tick_hsc_toNat.trans (if_neg noArm)
  case still =>
    rw [State.withAnswer_ga, s.tick_div, s.tick_irq, State.gaAfterHsync_of_no_fall noFall]
    refine ⟨rfl, rfl, fun inside => ?_⟩
    rw [State.tick_ga_of_not_vsyncStarts (State.not_vsyncStarts_of_not_lineEnds inside),
      State.gaAfterHsync_of_no_fall noFall, GateArray.advance_vcd]
  case fallen =>
    rw [State.withAnswer_ga, s.tick_div, s.tick_irq, State.gaAfterHsync_of_fall fall]
    refine ⟨rfl, rfl, fun inside => ?_⟩
    rw [State.tick_ga_of_not_vsyncStarts (State.not_vsyncStarts_of_not_lineEnds inside),
      State.gaAfterHsync_of_fall fall]

/-- Settles O34: `h` exceeds the lowered R0, whatever R0 was (R126), and the row test reads R9, which SETREG 0 keeps. -/
theorem loweredBoundEndsTheScanline : Obligations.LoweredBoundEndsTheScanline := by
  intro s v composed lowered
  have composed' : ((s.writeReg 0 v).withAnswer .nothing).target = .composed := composed
  have line : ((s.writeReg 0 v).withAnswer .nothing).lineEnds := by
    simpa [State.lineEnds] using Nat.lt_succ_of_lt lowered
  have nine : ((s.writeReg 0 v).withAnswer .nothing).reg 9 = s.reg 9 := by simp
  refine ⟨_, _, exec_setreg composed 0 v, rfl, exec_tick_of_composed composed', ?hcc, ?vlc⟩
  case hcc => rw [State.withAnswer_crtc, State.tick_hcc, if_pos line]
  case vlc =>
    rw [State.withAnswer_crtc, State.tick_vlc_toNat, if_pos line]
    simp only [State.rowEnds, line, true_and, nine]
    rfl

/-! ### The configuration of R146, and the border query -/

theorem State.tick_of_all_zero (bank : ∀ i : RegIndex, s.reg i = 0#8) (origin : s.atOrigin)
    (noHsync : s.crtc.hsc = 0#8) (noVsync : s.crtc.vsc = 0#8) :
    s.tick = (s.withCrtc { s.crtc with nops := s.crtc.nops + 1 }).withGa s.ga.advance := by
  obtain ⟨hcc, vlc, vcc⟩ := origin
  have row : s.rowEnds := by simp [State.rowEnds, State.lineEnds, bank, hcc, vlc]
  have noStart : ¬ s.vsyncStarts := by
    rintro ⟨-, triggers, -⟩
    simp [bank, vcc] at triggers
  have outside : SameOutside ((s.withCrtc { s.crtc with nops := s.crtc.nops + 1 }).withGa s.ga.advance) s.tick :=
    ⟨s.tick_regs, s.tick_fault, s.tick_params, s.tick_target, s.tick_host⟩
  refine State.eq_of_sameOutside outside (Crtc.eq_of_parts ?hcc ?vlc ?vcc ?hsc ?vsc s.tick_nops) ?ga
  case hcc => rw [s.tick_hcc, if_pos row.1]; exact hcc.symm
  case vlc => rw [s.tick_vlc, if_pos row]; exact vlc.symm
  case vcc => rw [s.tick_vcc, if_pos row, bank, vcc]; exact vcc.symm
  case hsc => rw [s.tick_hsc, bank, hcc, noHsync]; exact noHsync.symm
  case vsc =>
    rw [s.tick_vsc, if_neg noStart, if_pos row.1, State.vscAtLineEnd, if_pos noVsync]
    exact noVsync.symm
  case ga =>
    rw [State.tick_ga_of_not_vsyncStarts noStart, State.gaAfterHsync_of_no_fall (by simp [noHsync])]
    rfl

theorem State.borderOut_iff (s : State) : s.borderOut = true ↔
    (s.reg 1).toNat ≤ s.crtc.hcc.toNat ∨ (s.reg 6).toNat ≤ s.crtc.vcc.toNat := by
  simp [State.borderOut]

theorem exec_qborder_of_composed (composed : s.target = .composed) :
    exec .qborder s = .next (s.withAnswer (.bit s.borderOut)) :=
  exec_of_takes (by rw [composed]; rfl) nofun

/-- Settles O35: every counter of a TICK comes back to 0, and `HCC >= R1` holds as 0 >= 0. -/
theorem allZeroConfigurationStandsStill : Obligations.AllZeroConfigurationStandsStill := by
  intro s composed bank origin noHsync noVsync
  have bordered : s.borderOut = true := by
    have one : s.reg 1 = 0#8 := bank 1
    simp [s.borderOut_iff, one]
  constructor
  · rw [exec_tick_of_composed composed, State.tick_of_all_zero bank origin noHsync noVsync]
    rfl
  · rw [exec_qborder_of_composed composed, bordered]
    rfl

/-- Settles O20: the comparisons of R143 decide the answer, and the corner cases are comparisons of registers. -/
theorem borderQueryComparesHccAndVcc : Obligations.BorderQueryComparesHccAndVcc := by
  intro s composed
  refine ⟨s.borderOut, exec_qborder_of_composed composed, s.borderOut_iff, fun zero => ?on, ?off⟩
  case on =>
    apply s.borderOut_iff.mpr
    obtain one | six := zero
    · exact .inl (by simp [s.reg_1, one])
    · exact .inr (by simp [s.reg_6, six])
  case off =>
    rintro ⟨hcc, -, vcc⟩ one six
    rw [← Bool.not_eq_true, s.borderOut_iff, s.reg_1, s.reg_6]
    rw [s.reg_0] at hcc
    rw [s.reg_4] at vcc
    omega

end Sys2Proof.Machine
end

section
/-! What one step can do to the block's own state, said once: the register bank, the counters and the Gate Array move by
one TICK, one register write, RESET or one Gate Array event, or stay. NOPS and the bounds of 41_crtc.md R137 follow. -/

namespace Sys2Proof.Machine

variable {s t u : State} {i : Instr}

/-- Two states that differ in `FAULT`, the unit and the host's side only. -/
structure SameBlock (s t : State) : Prop where
  regs : t.regs = s.regs
  crtc : t.crtc = s.crtc
  ga : t.ga = s.ga
  params : t.params = s.params

theorem SameBlock.reg (same : SameBlock s t) (j : RegIndex) : t.reg j = s.reg j := by
  rw [State.reg, same.regs]; rfl

theorem SameBlock.refl (s : State) : SameBlock s s := ⟨rfl, rfl, rfl, rfl⟩

theorem sameBlock_withProgram (s : State) (rest : List HostItem) : SameBlock s (s.withProgram rest) :=
  ⟨rfl, rfl, rfl, rfl⟩

theorem sameBlock_withAnswer (s : State) (a : Answer) : SameBlock s (s.withAnswer a) := ⟨rfl, rfl, rfl, rfl⟩

theorem sameBlock_raise (s : State) (f : Failure) : SameBlock s (s.raise f) := ⟨rfl, rfl, rfl, rfl⟩

theorem SameBlock.withBusy (same : SameBlock s t) (b : Option Procedure) : SameBlock s (t.withBusy b) :=
  ⟨same.regs, same.crtc, same.ga, same.params⟩

/-- The moves of the block. -/
inductive BlockMove (s : State) : State → Prop where
  | stay : BlockMove s s
  | tick : BlockMove s s.tick
  | write (r : RegIndex) (v : Byte) : BlockMove s (s.writeReg r v)
  | reset : BlockMove s ((s.withCrtc Crtc.zeroed).withGa GateArray.fresh)
  | advance : BlockMove s (s.withGa s.ga.advance)
  | hsyncFall : BlockMove s (s.withGa (s.ga.hsyncFall s.params.gaOrder))
  | vsyncStart : BlockMove s (s.withGa s.ga.vsyncStart)

theorem proceed_blockMove (p : Procedure) (s : State) : ∃ u, BlockMove s u ∧ SameBlock u (proceed p s) := by
  obtain ⟨b, a, ticks⟩ | ⟨b, a, waits⟩ := proceed_block p s
  · exact ⟨_, .tick, ticks ▸ (sameBlock_withAnswer _ a).withBusy b⟩
  · exact ⟨_, .stay, waits ▸ (sameBlock_withAnswer _ a).withBusy b⟩

theorem resume_blockMove (p : Procedure) (s : State) : ∃ u, BlockMove s u ∧ SameBlock u (resume p s) := by
  cases unit : s.target with
  | composed => rw [resume, unit]; exact proceed_blockMove p s
  | gateArrayAlone => rw [resume, unit]; exact ⟨s, .stay, (sameBlock_raise s _).withBusy none⟩

/-- RUNVS's first step is a TICK, whichever loop it is of. -/
theorem runvsLeave_eq_tick (s : State) : ∃ b, runvsLeave s = s.tick.withBusy b := by
  cases active : s.vsyncOut with
  | true => exact ⟨_, by rw [runvsLeave, if_pos active]⟩
  | false => exact ⟨_, by rw [runvsLeave, if_neg (by simp [active]), runvsAwait, if_neg (by simp [active])]⟩

theorem plainEffect_blockMove (i : Instr) (s : State) : ∃ u, BlockMove s u ∧ SameBlock u (plainEffect i s) := by
  cases i with
  | tick => exact ⟨_, .tick, sameBlock_withAnswer _ _⟩
  | reset => exact ⟨_, .reset, sameBlock_withAnswer _ _⟩
  | runvs =>
    obtain ⟨b, ticks⟩ := runvsLeave_eq_tick (s.withAnswer .nothing)
    rw [s.tick_withAnswer] at ticks
    exact ⟨_, .tick, by rw [plainEffect, ticks]; exact (sameBlock_withAnswer _ _).withBusy b⟩
  | gaAdv => exact ⟨_, .advance, sameBlock_withAnswer _ _⟩
  | gaHsf => exact ⟨_, .hsyncFall, sameBlock_withAnswer _ _⟩
  | gaVss => exact ⟨_, .vsyncStart, sameBlock_withAnswer _ _⟩
  | setreg index value => exact ⟨_, .stay, .refl s⟩
  | _ => exact ⟨_, .stay, sameBlock_withAnswer _ _⟩

theorem exec_blockMove (h : exec i s = .next t) : ∃ u, BlockMove s u ∧ SameBlock u t := by
  by_cases isSetreg : ∃ index value, i = .setreg index value
  · obtain ⟨index, value, rfl⟩ := isSetreg
    obtain ⟨f, rfl⟩ | ⟨r, v, -, -, rfl⟩ := exec_setreg_cases h
    · exact ⟨_, .stay, sameBlock_raise s f⟩
    · exact ⟨_, .write r v, sameBlock_withAnswer _ _⟩
  have notSetreg : ∀ index value, i ≠ .setreg index value := fun index value e => isSetreg ⟨index, value, e⟩
  cases takes : s.target.takes i with
  | true =>
    rw [exec_of_takes takes notSetreg] at h
    injection h with h
    exact h ▸ plainEffect_blockMove i s
  | false =>
    rw [exec_of_not_takes takes fun index value e => absurd e (notSetreg index value)] at h
    injection h with h
    exact ⟨_, .stay, h ▸ sameBlock_raise s _⟩

/-- A step moves the block it finds; taking an item from the host's program changes nothing of the block. -/
theorem step_blockMove (h : step s = .next t) :
    ∃ s' u, SameBlock s s' ∧ BlockMove s' u ∧ SameBlock u t := by
  obtain ⟨p, -, rfl⟩ | ⟨-, -, rfl⟩ | ⟨rest, -, -, rfl⟩ | ⟨w, rest, -, -, -, rfl⟩ |
    ⟨w, rest, i, -, -, -, ran⟩ := step_cases h
  · exact ⟨s, (resume_blockMove p s).imp fun _ moved => ⟨.refl s, moved⟩⟩
  · exact ⟨t, t, .refl t, .stay, .refl t⟩
  · exact ⟨_, (resume_blockMove .waitTick (s.withProgram rest)).imp fun _ moved =>
      ⟨sameBlock_withProgram s rest, moved⟩⟩
  · exact ⟨_, _, sameBlock_withProgram s rest, .stay, sameBlock_raise _ _⟩
  · exact ⟨_, (exec_blockMove ran).imp fun _ moved => ⟨sameBlock_withProgram s rest, moved⟩⟩

end Sys2Proof.Machine
end

section
/-! What every step keeps (41_crtc.md): `NOPS` counts the TICKs (R122); the bounds of R137 that a register write can
break; and the invariant, whose parts on the block (R137, R108) and on the host's side (60_exceptions.md R191,
42_host_procedures.md R160) are kept apart. -/

namespace Sys2Proof.Machine

variable {s t u : State} {i : Instr} {g : GateArray}

/-! ### NOPS -/

theorem BlockMove.nops (move : BlockMove s u) :
    u.crtc.nops = s.crtc.nops ∨ u.crtc.nops = s.crtc.nops + 1 ∨ u.crtc.nops = 0 := by
  cases move with
  | tick => exact .inr (.inl s.tick_nops)
  | reset => exact .inr (.inr rfl)
  | _ => exact .inl rfl

/-- The operations other than TICK, RUNVS and RESET write no counter (10_state.md section 2). -/
theorem exec_crtc_of_not_ticking (h : exec i s = .next t) (notTick : i ≠ .tick) (notRunvs : i ≠ .runvs)
    (notReset : i ≠ .reset) : t.crtc = s.crtc := by
  cases effect_of_exec h with
  | tick isTick => exact absurd isTick notTick
  | runvs isRunvs => exact absurd isRunvs notRunvs
  | reset isReset => exact absurd isReset notReset
  | _ => rfl

theorem exec_runvs_of_composed (composed : s.target = .composed) :
    ∃ b, exec .runvs s = .next ((s.tick.withAnswer .nothing).withBusy b) := by
  obtain ⟨b, ticks⟩ := runvsLeave_eq_tick (s.withAnswer .nothing)
  rw [s.tick_withAnswer] at ticks
  exact ⟨b, by rw [← ticks]; exact exec_of_takes (by rw [composed]; rfl) nofun⟩

theorem exec_reset_of_composed (composed : s.target = .composed) :
    exec .reset s = .next (((s.withCrtc Crtc.zeroed).withGa GateArray.fresh).withAnswer .nothing) :=
  exec_of_takes (by rw [composed]; rfl) nofun

/-- Settles O31: TICK and RUNVS are each one TICK (log 7), RESET zeroes the counters, nothing else writes them; a step
makes one move of the block. -/
theorem nopsCountsTicks : Obligations.NopsCountsTicks := by
  refine ⟨fun s composed => ⟨_, exec_tick_of_composed composed, s.tick_nops⟩, ?operation, ?step⟩
  case operation =>
    intro s t i composed h
    by_cases isTick : i = .tick
    · subst isTick
      rw [exec_tick_of_composed composed] at h
      injection h with h
      rw [← h, if_pos (.inl rfl), State.withAnswer_crtc, s.tick_nops]
    by_cases isRunvs : i = .runvs
    · subst isRunvs
      obtain ⟨b, ran⟩ := exec_runvs_of_composed composed
      rw [ran] at h
      injection h with h
      rw [← h, if_pos (.inr rfl), State.withBusy_crtc, State.withAnswer_crtc, s.tick_nops]
    rw [if_neg (not_or.mpr ⟨isTick, isRunvs⟩)]
    by_cases isReset : i = .reset
    · subst isReset
      rw [exec_reset_of_composed composed] at h
      injection h with h
      rw [← h, if_pos rfl]
      rfl
    · rw [if_neg isReset, exec_crtc_of_not_ticking h isTick isRunvs isReset]
  case step =>
    intro s t h
    obtain ⟨s', u, before, move, after⟩ := step_blockMove h
    rw [after.crtc, ← before.crtc]
    exact move.nops

/-! ### The bounds of the raster counters -/

/-- The registers that bound the raster counters are no lower in `t` than in `s`. -/
structure BoundsNoLower (s t : State) : Prop where
  zero : (s.reg 0).toNat ≤ (t.reg 0).toNat
  nine : (s.reg 9).toNat ≤ (t.reg 9).toNat
  four : (s.reg 4).toNat ≤ (t.reg 4).toNat

theorem State.withinBounds_of_crtc_eq (bounds : s.withinBounds) (crtc : t.crtc = s.crtc)
    (noLower : BoundsNoLower s t) : t.withinBounds := by
  obtain ⟨hcc, vlc, vcc⟩ := bounds
  rw [State.withinBounds, crtc]
  exact ⟨hcc.trans noLower.zero, vlc.trans noLower.nine, vcc.trans noLower.four⟩

/-- Each raster counter is zeroed by TICK where counting on would take it beyond its register (R126, R128, R131). -/
theorem State.tick_withinBounds (bounds : s.withinBounds) : s.tick.withinBounds := by
  obtain ⟨hcc, vlc, vcc⟩ := bounds
  rw [State.withinBounds, s.tick_hcc_toNat, s.tick_vlc_toNat]
  simp only [State.tick_reg]
  refine ⟨?hcc, ?vlc, ?vcc⟩
  case hcc =>
    by_cases line : s.lineEnds
    · simp [line]
    · rw [if_neg line]; exact Nat.le_of_not_gt line
  case vlc =>
    by_cases row : s.rowEnds
    · rw [if_pos row]; exact Nat.zero_le _
    · rw [if_neg row]
      by_cases line : s.lineEnds
      · rw [if_pos line]; exact Nat.le_of_not_gt fun above => row ⟨line, above⟩
      · rwa [if_neg line]
  case vcc =>
    by_cases row : s.rowEnds
    · rw [State.tick_vcc_of_rowEnds row]
      by_cases wraps : s.crtc.vcc.toNat + 1 > (s.reg 4).toNat
      · simp [wraps]
      · rw [if_neg wraps]; exact Nat.le_of_not_gt wraps
    · rwa [State.tick_vcc_of_not_rowEnds row (.inr vcc)]

theorem BlockMove.withinBounds (move : BlockMove s u) (bounds : s.withinBounds) (noLower : BoundsNoLower s u) :
    u.withinBounds := by
  cases move with
  | tick => exact State.tick_withinBounds bounds
  | reset => exact ⟨Nat.zero_le _, Nat.zero_le _, Nat.zero_le _⟩
  | _ => exact State.withinBounds_of_crtc_eq bounds rfl noLower

theorem BoundsNoLower.of_sameBlock {s' : State} (before : SameBlock s s') (after : SameBlock u t)
    (noLower : BoundsNoLower s t) : BoundsNoLower s' u := by
  obtain ⟨zero, nine, four⟩ := noLower
  constructor <;> rwa [before.reg, ← after.reg]

/-- Settles O42: of the moves of the block TICK keeps the counters in bounds by itself, RESET zeroes them, and the others
leave them below registers that are no lower. -/
theorem boundsKeptByEveryStep : Obligations.BoundsKeptByEveryStep := by
  intro s t bounds h zero nine four
  obtain ⟨s', u, before, move, after⟩ := step_blockMove h
  have noLower : BoundsNoLower s t := ⟨zero, nine, four⟩
  have started : s'.withinBounds :=
    State.withinBounds_of_crtc_eq bounds before.crtc (by constructor <;> rw [before.reg])
  have moved : u.withinBounds := move.withinBounds started (noLower.of_sameBlock before after)
  exact State.withinBounds_of_crtc_eq moved after.crtc (by constructor <;> rw [after.reg])

/-! ### The invariant's part on the block -/

theorem GateArray.dividerPart_reachable (reachable : g.reachable) : g.dividerPart.reachable := by
  obtain ⟨range, nonzero⟩ := reachable
  exact ⟨by rw [dividerPart_div_toNat range]; omega, by rwa [dividerPart_vcd]⟩

theorem GateArray.countdownPart_reachable (reachable : g.reachable) : g.countdownPart.reachable := by
  obtain ⟨range, nonzero⟩ := reachable
  by_cases correction : g.vcd = .one
  · rw [countdownPart_of_one _ correction]
    exact ⟨by simp, nofun⟩
  · rw [countdownPart_of_ne_one _ correction]
    refine ⟨range, ?_⟩
    by_cases armed : g.vcd = .two
    · simp [armed]
    · simpa [armed] using nonzero

theorem GateArray.hsyncFall_reachable (o : GaOrder) (reachable : g.reachable) : (g.hsyncFall o).reachable := by
  cases o with
  | dividerFirst => exact countdownPart_reachable (dividerPart_reachable reachable)
  | countdownFirst => exact dividerPart_reachable (countdownPart_reachable reachable)

theorem GateArray.vsyncStart_reachable (reachable : g.reachable) : g.vsyncStart.reachable :=
  ⟨reachable.1, nofun⟩

theorem State.tick_ga_reachable (reachable : s.ga.reachable) : s.tick.ga.reachable := by
  have hsync : s.gaAfterHsync.reachable := by
    by_cases fall : s.crtc.hsc = 1#8
    · rw [gaAfterHsync_of_fall fall]
      exact GateArray.hsyncFall_reachable (g := s.ga.advance) _ reachable
    · rw [gaAfterHsync_of_no_fall fall]
      exact reachable
  by_cases starts : s.vsyncStarts
  · rw [tick_ga_of_vsyncStarts starts]; exact GateArray.vsyncStart_reachable hsync
  · rwa [tick_ga_of_not_vsyncStarts starts]

theorem BlockMove.reachable (move : BlockMove s u) (reachable : s.ga.reachable) : u.ga.reachable := by
  cases move with
  | tick => exact State.tick_ga_reachable reachable
  | reset => exact ⟨Nat.zero_le _, nofun⟩
  | hsyncFall => exact GateArray.hsyncFall_reachable _ reachable
  | vsyncStart => exact GateArray.vsyncStart_reachable reachable
  | _ => exact reachable

/-- A sync counter is armed to its width or counted down. -/
theorem State.tick_syncsWithinWidths (syncs : s.syncsWithinWidths) : s.tick.syncsWithinWidths := by
  obtain ⟨hsc, vsc⟩ := syncs
  rw [toByte_toNat] at hsc vsc
  rw [State.syncsWithinWidths, s.tick_hsc_toNat, s.tick_vsc_toNat, s.tick_params, toByte_toNat, toByte_toNat]
  constructor
  · split <;> omega
  · split
    · omega
    · split <;> omega

theorem BlockMove.syncsWithinWidths (move : BlockMove s u) (syncs : s.syncsWithinWidths) :
    u.syncsWithinWidths := by
  cases move with
  | tick => exact State.tick_syncsWithinWidths syncs
  | reset => exact ⟨Nat.zero_le _, Nat.zero_le _⟩
  | _ => exact syncs

theorem SameBlock.syncsWithinWidths (same : SameBlock s t) (syncs : s.syncsWithinWidths) :
    t.syncsWithinWidths := by
  rwa [State.syncsWithinWidths, same.crtc, same.params]

theorem step_syncsWithinWidths (h : step s = .next t) (syncs : s.syncsWithinWidths) : t.syncsWithinWidths := by
  obtain ⟨s', u, before, move, after⟩ := step_blockMove h
  exact after.syncsWithinWidths (move.syncsWithinWidths (before.syncsWithinWidths syncs))

theorem step_reachable (h : step s = .next t) (reachable : s.ga.reachable) : t.ga.reachable := by
  obtain ⟨s', u, before, move, after⟩ := step_blockMove h
  rw [after.ga]
  exact move.reachable (before.ga ▸ reachable)

/-! ### The invariant's part on the host's side: failures -/

theorem State.failureMarked_of_fault (faulted : s.fault = true) : s.failureMarked := fun _ _ => faulted

/-- The host has been handed no failure since `s`, and `FAULT` is as it was. -/
structure HandsNoFailure (s t : State) : Prop where
  fault : t.fault = s.fault
  answer : t.host.answer = s.host.answer ∨ ∀ f, t.host.answer ≠ .failed f

theorem HandsNoFailure.failureMarked (clean : HandsNoFailure s t) (marked : s.failureMarked) :
    t.failureMarked := by
  intro f failed
  rw [clean.fault]
  obtain same | none := clean.answer
  · exact marked f (same ▸ failed)
  · exact absurd failed (none f)

theorem HandsNoFailure.refl (s : State) : HandsNoFailure s s := ⟨rfl, .inl rfl⟩

theorem handsNoFailure_tick (s : State) : HandsNoFailure s s.tick :=
  ⟨s.tick_fault, .inl (congrArg HostSide.answer s.tick_host)⟩

theorem HandsNoFailure.withBusy (clean : HandsNoFailure s t) (b : Option Procedure) :
    HandsNoFailure s (t.withBusy b) := ⟨clean.fault, clean.answer⟩

theorem HandsNoFailure.withNothing (clean : HandsNoFailure s t) : HandsNoFailure s (t.withAnswer .nothing) :=
  ⟨clean.fault, .inr nofun⟩

theorem HandsNoFailure.withBit (clean : HandsNoFailure s t) (b : Bool) : HandsNoFailure s (t.withAnswer (.bit b)) :=
  ⟨clean.fault, .inr nofun⟩

theorem runvsAwait_handsNoFailure (s : State) : HandsNoFailure s (runvsAwait s) := by
  unfold runvsAwait
  split
  · exact (HandsNoFailure.refl s).withBusy _
  · exact (handsNoFailure_tick s).withBusy _

theorem runvsLeave_handsNoFailure (s : State) : HandsNoFailure s (runvsLeave s) := by
  unfold runvsLeave
  split
  · exact (handsNoFailure_tick s).withBusy _
  · exact runvsAwait_handsNoFailure s

theorem proceed_handsNoFailure (p : Procedure) (s : State) : HandsNoFailure s (proceed p s) := by
  cases p with
  | runvsLeave => exact runvsLeave_handsNoFailure s
  | runvsAwait => exact runvsAwait_handsNoFailure s
  | waitTick => exact (handsNoFailure_tick s).withNothing.withBusy _
  | waitQuery => exact ((HandsNoFailure.refl s).withBit _).withBusy _

theorem resume_failureMarked (p : Procedure) (marked : s.failureMarked) : (resume p s).failureMarked := by
  cases unit : s.target with
  | composed => rw [resume, unit]; exact (proceed_handsNoFailure p s).failureMarked marked
  | gateArrayAlone => rw [resume, unit]; exact State.failureMarked_of_fault rfl

theorem exec_failureMarked (h : exec i s = .next t) (marked : s.failureMarked) : t.failureMarked := by
  cases effect_of_exec h with
  | failed f => exact State.failureMarked_of_fault rfl
  | tick => exact (handsNoFailure_tick s).withNothing.failureMarked marked
  | runvs =>
    have answered : (s.withAnswer .nothing).failureMarked :=
      (HandsNoFailure.refl s).withNothing.failureMarked marked
    exact (runvsLeave_handsNoFailure _).failureMarked answered
  | _ => exact HandsNoFailure.failureMarked (s := s) ⟨rfl, .inr nofun⟩ marked

theorem step_failureMarked (h : step s = .next t) (marked : s.failureMarked) : t.failureMarked := by
  obtain ⟨p, -, rfl⟩ | ⟨-, -, rfl⟩ | ⟨rest, -, -, rfl⟩ | ⟨w, rest, -, -, -, rfl⟩ |
    ⟨w, rest, i, -, -, -, ran⟩ := step_cases h
  · exact resume_failureMarked p marked
  · exact marked
  · exact resume_failureMarked (s := s.withProgram rest) .waitTick marked
  · exact State.failureMarked_of_fault rfl
  · exact exec_failureMarked (s := s.withProgram rest) ran marked

/-! ### The invariant's part on the host's side: RUNVS's second loop -/

theorem State.awaitsWithoutSync_of_busy_ne (elsewhere : s.host.busy ≠ some .runvsAwait) : s.awaitsWithoutSync :=
  fun awaits => absurd awaits elsewhere

theorem State.withBusy_awaitsWithoutSync (s : State) {b : Option Procedure} (elsewhere : b ≠ some .runvsAwait) :
    (s.withBusy b).awaitsWithoutSync := State.awaitsWithoutSync_of_busy_ne elsewhere

theorem State.vsyncOut_eq_false_iff : s.vsyncOut = false ↔ s.crtc.vsc = 0#8 := by simp [State.vsyncOut]

/-- RUNVS stays in its second loop only if the TICK it makes leaves no vertical sync (R160). -/
theorem runvsAwait_awaitsWithoutSync (s : State) : (runvsAwait s).awaitsWithoutSync := by
  unfold runvsAwait
  split
  · exact State.withBusy_awaitsWithoutSync _ nofun
  · intro awaits
    rw [State.withBusy_busy] at awaits
    rw [State.withBusy_crtc]
    cases active : s.tick.vsyncOut with
    | true => simp [active] at awaits
    | false => exact State.vsyncOut_eq_false_iff.mp active

theorem runvsLeave_awaitsWithoutSync (s : State) : (runvsLeave s).awaitsWithoutSync := by
  unfold runvsLeave
  split
  · exact State.withBusy_awaitsWithoutSync _ nofun
  · exact runvsAwait_awaitsWithoutSync s

theorem proceed_awaitsWithoutSync (p : Procedure) (s : State) : (proceed p s).awaitsWithoutSync := by
  cases p with
  | runvsLeave => exact runvsLeave_awaitsWithoutSync s
  | runvsAwait => exact runvsAwait_awaitsWithoutSync s
  | waitTick => exact State.withBusy_awaitsWithoutSync _ nofun
  | waitQuery => exact State.withBusy_awaitsWithoutSync _ (by cases s.intOut <;> simp)

theorem resume_awaitsWithoutSync (p : Procedure) (s : State) : (resume p s).awaitsWithoutSync := by
  cases unit : s.target with
  | composed => rw [resume, unit]; exact proceed_awaitsWithoutSync p s
  | gateArrayAlone => rw [resume, unit]; exact State.withBusy_awaitsWithoutSync _ nofun

/-- Of the operations only RUNVS puts a procedure in progress. -/
theorem exec_awaitsWithoutSync (idle : s.host.busy = none) (h : exec i s = .next t) : t.awaitsWithoutSync := by
  cases effect_of_exec h with
  | runvs => exact runvsLeave_awaitsWithoutSync _
  | _ => exact State.awaitsWithoutSync_of_busy_ne (by simp [idle])

theorem step_awaitsWithoutSync (h : step s = .next t) (awaits : s.awaitsWithoutSync) : t.awaitsWithoutSync := by
  obtain ⟨p, -, rfl⟩ | ⟨-, -, rfl⟩ | ⟨rest, -, -, rfl⟩ | ⟨w, rest, idle, -, -, rfl⟩ |
    ⟨w, rest, i, idle, -, -, ran⟩ := step_cases h
  · exact resume_awaitsWithoutSync p s
  · exact awaits
  · exact resume_awaitsWithoutSync .waitTick _
  · exact State.awaitsWithoutSync_of_busy_ne (by simp [idle])
  · exact exec_awaitsWithoutSync (s := s.withProgram rest) idle ran

/-- Settles O41, part by part. -/
theorem invariantKeptByEveryStep : Obligations.InvariantKeptByEveryStep := by
  rintro s t ⟨syncs, reachable, marked, awaits⟩ h
  exact ⟨step_syncsWithinWidths h syncs, step_reachable h reachable, step_failureMarked h marked,
    step_awaitsWithoutSync h awaits⟩

/-! ### The invariant at power-on, and RESET -/

theorem State.powerOn_inv (p : Params) (initReg : Vector Byte 14) : (State.powerOn p initReg).Inv :=
  ⟨⟨Nat.zero_le _, Nat.zero_le _⟩, ⟨Nat.zero_le _, nofun⟩, nofun, nofun⟩

/-- Settles O40: power-on has every counter 0, a fresh Gate Array, nothing handed over and no procedure in progress. -/
theorem invariantAtPowerOn : Obligations.InvariantAtPowerOn :=
  ⟨State.powerOn_inv, State.powerOn_inv Config.params Config.initReg⟩

/-- Settles O13: what RESET writes does not depend on what it finds there. -/
theorem resetTwiceIsResetOnce : Obligations.ResetTwiceIsResetOnce := by
  intro s composed
  exact ⟨_, exec_reset_of_composed composed, exec_reset_of_composed composed⟩

end Sys2Proof.Machine
end

section
/-! A run of TICKs with nothing between them ("TICKS n", 30_encoding.md R89), and the raster position in it (41_crtc.md
R136): `HCC`, `VLC` and `VCC` are the three digits of the number of TICKs since the origin, each carried into the next
where TICK ends a scanline, a row and a frame. -/

namespace Sys2Proof.Machine

variable {s : State} {n : Nat}

/-! ### A run of TICKs -/

/-- The composed block after `n` TICK operations. -/
def State.afterTicks (s : State) : Nat → State
  | 0 => s
  | n + 1 => (s.afterTicks n).tick.withAnswer .nothing

theorem State.afterTicks_succ (s : State) (n : Nat) :
    s.afterTicks (n + 1) = (s.afterTicks n).tick.withAnswer .nothing := rfl

@[simp] theorem State.afterTicks_target (s : State) (n : Nat) : (s.afterTicks n).target = s.target := by
  induction n with
  | zero => rfl
  | succ n ih => rw [afterTicks_succ, withAnswer_target, tick_target, ih]

@[simp] theorem State.afterTicks_regs (s : State) (n : Nat) : (s.afterTicks n).regs = s.regs := by
  induction n with
  | zero => rfl
  | succ n ih => rw [afterTicks_succ, withAnswer_regs, tick_regs, ih]

@[simp] theorem State.afterTicks_reg (s : State) (n : Nat) (i : RegIndex) : (s.afterTicks n).reg i = s.reg i := by
  rw [reg, afterTicks_regs]; rfl

@[simp] theorem State.afterTicks_params (s : State) (n : Nat) : (s.afterTicks n).params = s.params := by
  induction n with
  | zero => rfl
  | succ n ih => rw [afterTicks_succ, withAnswer_params, tick_params, ih]

theorem State.afterTicks_nops (s : State) (n : Nat) : (s.afterTicks n).crtc.nops = s.crtc.nops + n := by
  induction n with
  | zero => rfl
  | succ n ih => rw [afterTicks_succ, withAnswer_crtc, tick_nops, ih, Nat.add_assoc]

theorem ticksTo_afterTicks (composed : s.target = .composed) (n : Nat) : TicksTo n s (s.afterTicks n) := by
  induction n with
  | zero => rfl
  | succ n ih => exact ⟨_, ih, exec_tick_of_composed (by rw [s.afterTicks_target, composed])⟩

/-! ### Counting with a carry -/

theorem succ_eq_mul_div_add (n k : Nat) : n + 1 = k * (n / k) + (n % k + 1) := by
  rw [← Nat.add_assoc, Nat.div_add_mod]

theorem succ_mod_of_carry {n k : Nat} (carry : n % k + 1 = k) : (n + 1) % k = 0 := by
  rw [succ_eq_mul_div_add n k, carry, Nat.mul_add_mod, Nat.mod_self]

theorem succ_mod_of_not_carry {n k : Nat} (positive : 0 < k) (noCarry : n % k + 1 ≠ k) :
    (n + 1) % k = n % k + 1 := by
  have below : n % k < k := Nat.mod_lt n positive
  rw [succ_eq_mul_div_add n k, Nat.mul_add_mod]
  exact Nat.mod_eq_of_lt (by omega)

theorem succ_div_of_carry {n k : Nat} (positive : 0 < k) (carry : n % k + 1 = k) : (n + 1) / k = n / k + 1 := by
  rw [succ_eq_mul_div_add n k, carry, Nat.mul_add_div positive, Nat.div_self positive]

theorem succ_div_of_not_carry {n k : Nat} (positive : 0 < k) (noCarry : n % k + 1 ≠ k) :
    (n + 1) / k = n / k := by
  have below : n % k < k := Nat.mod_lt n positive
  have none : (n % k + 1) / k = 0 := Nat.div_eq_of_lt (by omega)
  rw [succ_eq_mul_div_add n k, Nat.mul_add_div positive, none, Nat.add_zero]

/-- A digit carries where counting it on would take it above its greatest value. -/
theorem carry_iff_of_digit {x n greatest : Nat} (digit : x = n % (greatest + 1)) :
    x + 1 > greatest ↔ n % (greatest + 1) + 1 = greatest + 1 := by
  have below : n % (greatest + 1) < greatest + 1 := Nat.mod_lt n (Nat.succ_pos greatest)
  omega

/-! ### The phase -/

/-- The ticks of a scanline. -/
abbrev State.lineTicks (s : State) : Nat := (s.reg 0).toNat + 1

/-- The scanlines of a character row. -/
abbrev State.rowLines (s : State) : Nat := (s.reg 9).toNat + 1

/-- The character rows of a frame. -/
abbrev State.frameRows (s : State) : Nat := (s.reg 4).toNat + 1

/-- The raster position is that of tick `n` counted from the origin, with the registers as they are (R136). -/
structure State.AtPhase (s : State) (n : Nat) : Prop where
  hcc : s.crtc.hcc.toNat = n % s.lineTicks
  vlc : s.crtc.vlc.toNat = n / s.lineTicks % s.rowLines
  vcc : s.crtc.vcc.toNat = n / s.lineTicks / s.rowLines % s.frameRows

theorem State.atPhase_zero (origin : s.atOrigin) : s.AtPhase 0 := by
  obtain ⟨hcc, vlc, vcc⟩ := origin
  constructor
  · simp [hcc]
  · simp [vlc]
  · simp [vcc]

theorem State.AtPhase.withAnswer (phase : s.AtPhase n) (a : Answer) : (s.withAnswer a).AtPhase n :=
  ⟨phase.hcc, phase.vlc, phase.vcc⟩

theorem State.AtPhase.vcc_le (phase : s.AtPhase n) : s.crtc.vcc.toNat ≤ (s.reg 4).toNat := by
  rw [phase.vcc]
  exact Nat.le_of_lt_succ (Nat.mod_lt _ (Nat.succ_pos _))

/-- The scanline ends where the first digit carries. -/
theorem State.AtPhase.lineEnds_iff (phase : s.AtPhase n) : s.lineEnds ↔ n % s.lineTicks + 1 = s.lineTicks :=
  carry_iff_of_digit phase.hcc

/-- The row ends where the second digit carries too. -/
theorem State.AtPhase.rowEnds_iff (phase : s.AtPhase n) : s.rowEnds ↔
    s.lineEnds ∧ n / s.lineTicks % s.rowLines + 1 = s.rowLines :=
  and_congr_right fun _ => carry_iff_of_digit phase.vlc

theorem State.AtPhase.lines_of_lineEnds (phase : s.AtPhase n) (line : s.lineEnds) :
    (n + 1) / s.lineTicks = n / s.lineTicks + 1 :=
  succ_div_of_carry (Nat.succ_pos _) (phase.lineEnds_iff.mp line)

theorem State.AtPhase.lines_of_not_lineEnds (phase : s.AtPhase n) (noLine : ¬ s.lineEnds) :
    (n + 1) / s.lineTicks = n / s.lineTicks :=
  succ_div_of_not_carry (Nat.succ_pos _) (mt phase.lineEnds_iff.mpr noLine)

theorem State.AtPhase.rows_of_rowEnds (phase : s.AtPhase n) (row : s.rowEnds) :
    (n + 1) / s.lineTicks / s.rowLines = n / s.lineTicks / s.rowLines + 1 := by
  obtain ⟨line, carry⟩ := phase.rowEnds_iff.mp row
  rw [phase.lines_of_lineEnds line, succ_div_of_carry (Nat.succ_pos _) carry]

theorem State.AtPhase.rows_of_not_rowEnds (phase : s.AtPhase n) (noRow : ¬ s.rowEnds) :
    (n + 1) / s.lineTicks / s.rowLines = n / s.lineTicks / s.rowLines := by
  by_cases line : s.lineEnds
  · have noCarry : n / s.lineTicks % s.rowLines + 1 ≠ s.rowLines := fun carry =>
      noRow (phase.rowEnds_iff.mpr ⟨line, carry⟩)
    rw [phase.lines_of_lineEnds line, succ_div_of_not_carry (Nat.succ_pos _) noCarry]
  · rw [phase.lines_of_not_lineEnds line]

theorem State.AtPhase.tick_hcc (phase : s.AtPhase n) : s.tick.crtc.hcc.toNat = (n + 1) % s.lineTicks := by
  rw [s.tick_hcc_toNat]
  by_cases line : s.lineEnds
  · rw [if_pos line, succ_mod_of_carry (phase.lineEnds_iff.mp line)]
  · rw [if_neg line, succ_mod_of_not_carry (Nat.succ_pos _) (mt phase.lineEnds_iff.mpr line), phase.hcc]

theorem State.AtPhase.tick_vlc (phase : s.AtPhase n) :
    s.tick.crtc.vlc.toNat = (n + 1) / s.lineTicks % s.rowLines := by
  rw [s.tick_vlc_toNat]
  by_cases line : s.lineEnds
  · rw [phase.lines_of_lineEnds line]
    by_cases carry : n / s.lineTicks % s.rowLines + 1 = s.rowLines
    · rw [if_pos (phase.rowEnds_iff.mpr ⟨line, carry⟩), succ_mod_of_carry carry]
    · rw [if_neg fun row => carry (phase.rowEnds_iff.mp row).2, if_pos line,
        succ_mod_of_not_carry (Nat.succ_pos _) carry, phase.vlc]
  · rw [if_neg fun row => line row.1, if_neg line, phase.lines_of_not_lineEnds line, phase.vlc]

theorem State.AtPhase.tick_vcc (phase : s.AtPhase n) :
    s.tick.crtc.vcc.toNat = (n + 1) / s.lineTicks / s.rowLines % s.frameRows := by
  by_cases row : s.rowEnds
  · rw [State.tick_vcc_of_rowEnds row, phase.rows_of_rowEnds row]
    by_cases wraps : s.crtc.vcc.toNat + 1 > (s.reg 4).toNat
    · rw [if_pos wraps, succ_mod_of_carry ((carry_iff_of_digit phase.vcc).mp wraps)]
    · rw [if_neg wraps, succ_mod_of_not_carry (Nat.succ_pos _) (mt (carry_iff_of_digit phase.vcc).mpr wraps),
        phase.vcc]
  · rw [State.tick_vcc_of_not_rowEnds row (.inr phase.vcc_le), phase.rows_of_not_rowEnds row, phase.vcc]

/-- A TICK advances the phase by one, under either `VCC_WRAP_SCOPE`. -/
theorem State.AtPhase.tick (phase : s.AtPhase n) : s.tick.AtPhase (n + 1) := by
  constructor <;> simp only [State.lineTicks, State.rowLines, State.frameRows, State.tick_reg]
  · exact phase.tick_hcc
  · exact phase.tick_vlc
  · exact phase.tick_vcc

theorem State.afterTicks_atPhase (origin : s.atOrigin) (n : Nat) : (s.afterTicks n).AtPhase n := by
  induction n with
  | zero => exact State.atPhase_zero origin
  | succ n ih => exact ih.tick.withAnswer .nothing

/-- Settles O43: the phase after `n` TICKs is `n`. -/
theorem positionAfterTicksIsThePhase : Obligations.PositionAfterTicksIsThePhase := by
  intro s n composed origin
  obtain ⟨hcc, vlc, vcc⟩ := State.afterTicks_atPhase origin n
  simp only [State.lineTicks, State.rowLines, State.frameRows, State.afterTicks_reg] at hcc vlc vcc
  rw [Nat.div_div_eq_div_mul] at vcc
  exact ⟨_, ticksTo_afterTicks composed n, s.afterTicks_regs n, s.afterTicks_nops n, hcc, vlc, vcc⟩

/-! ### The first vertical-sync start -/

theorem State.vscAtLineEnd_of_idle (idle : s.crtc.vsc = 0#8) : s.vscAtLineEnd = 0#8 := by
  rw [State.vscAtLineEnd, if_pos idle]

theorem State.tick_vsc_of_idle (idle : s.crtc.vsc = 0#8) (noStart : ¬ s.vsyncStarts) :
    s.tick.crtc.vsc = 0#8 := by
  rw [s.tick_vsc, if_neg noStart, State.vscAtLineEnd_of_idle idle, idle, ite_self]

/-- `c` is the row count `R7` at a vertical-sync start, and the vertical-total test follows (R129). -/
theorem State.tick_vcc_of_vsyncStarts (starts : s.vsyncStarts) : s.tick.crtc.vcc.toNat =
    if (s.reg 7).toNat > (s.reg 4).toNat then 0 else (s.reg 7).toNat := by
  obtain ⟨row, triggers, -⟩ := starts
  rw [State.tick_vcc_of_rowEnds row, triggers]

/-- In a frame's rows before row R7 the vertical sync starts where the count of rows comes to R7 (R130, R136). -/
theorem State.AtPhase.vsyncStarts_iff (phase : s.AtPhase n) (idle : s.crtc.vsc = 0#8)
    (inFrame : (s.reg 7).toNat ≤ s.frameRows) (before : n / s.lineTicks / s.rowLines < (s.reg 7).toNat) :
    s.vsyncStarts ↔ (n + 1) / s.lineTicks / s.rowLines = (s.reg 7).toNat := by
  have vcc : s.crtc.vcc.toNat = n / s.lineTicks / s.rowLines := by
    rw [phase.vcc, Nat.mod_eq_of_lt (before.trans_le inFrame)]
  rw [State.vsyncStarts, vcc]
  by_cases row : s.rowEnds
  · rw [phase.rows_of_rowEnds row]
    exact ⟨fun starts => starts.2.1, fun count => ⟨row, count, State.vscAtLineEnd_of_idle idle⟩⟩
  · rw [phase.rows_of_not_rowEnds row]
    exact ⟨fun starts => absurd starts.1 row, fun count => absurd count before.ne⟩

/-- The number of TICKs from the origin to the first vertical-sync start. -/
abbrev State.firstVsyncTick (s : State) : Nat := s.lineTicks * s.rowLines * (s.reg 7).toNat

theorem State.rows_lt_iff (s : State) (n : Nat) :
    n / s.lineTicks / s.rowLines < (s.reg 7).toNat ↔ n < s.firstVsyncTick := by
  rw [Nat.div_div_eq_div_mul, Nat.div_lt_iff_lt_mul (by positivity), Nat.mul_comm]

theorem State.rows_at_firstVsyncTick (s : State) :
    s.firstVsyncTick / s.lineTicks / s.rowLines = (s.reg 7).toNat := by
  rw [Nat.div_div_eq_div_mul, Nat.mul_div_cancel_left _ (by positivity)]

section
variable (origin : s.atOrigin) (idle : s.crtc.vsc = 0#8) (inFrame : (s.reg 7).toNat ≤ s.frameRows)
include origin inFrame

/-- The start condition at a state of the run, in terms of the registers that the run keeps. -/
theorem State.afterTicks_vsyncStarts_iff (stillIdle : (s.afterTicks n).crtc.vsc = 0#8)
    (before : n < s.firstVsyncTick) :
    (s.afterTicks n).vsyncStarts ↔ (n + 1) / s.lineTicks / s.rowLines = (s.reg 7).toNat := by
  have start_iff := (State.afterTicks_atPhase origin n).vsyncStarts_iff stillIdle
  simp only [State.frameRows, State.lineTicks, State.rowLines, State.afterTicks_reg] at start_iff
  exact start_iff inFrame ((s.rows_lt_iff n).mpr before)

include idle

theorem State.afterTicks_vsc_of_lt_firstVsyncTick :
    ∀ n < s.firstVsyncTick, (s.afterTicks n).crtc.vsc = 0#8 := by
  intro n
  induction n with
  | zero => exact fun _ => idle
  | succ n ih =>
    intro before
    have stillIdle := ih (Nat.lt_of_succ_lt before)
    have noStart : ¬ (s.afterTicks n).vsyncStarts := by
      rw [State.afterTicks_vsyncStarts_iff origin inFrame stillIdle (Nat.lt_of_succ_lt before)]
      exact ((s.rows_lt_iff (n + 1)).mpr before).ne
    rw [State.afterTicks_succ, State.withAnswer_crtc, State.tick_vsc_of_idle stillIdle noStart]

theorem State.afterTicks_vsyncStarts_of_succ (last : n + 1 = s.firstVsyncTick) :
    (s.afterTicks n).vsyncStarts := by
  have before : n < s.firstVsyncTick := by omega
  have stillIdle := State.afterTicks_vsc_of_lt_firstVsyncTick origin idle inFrame n before
  rw [State.afterTicks_vsyncStarts_iff origin inFrame stillIdle before, last, s.rows_at_firstVsyncTick]

end

/-- Settles O44: before row R7 no TICK starts a vertical sync, and the TICK that ends row R7 - 1 does. -/
theorem firstVsyncStartTick : Obligations.FirstVsyncStartTick := by
  intro s composed origin idle positive inFrame
  have inFrame' : (s.reg 7).toNat ≤ s.frameRows := inFrame
  constructor
  · intro n before
    exact ⟨_, ticksTo_afterTicks composed n,
      State.afterTicks_vsc_of_lt_firstVsyncTick origin idle inFrame' n before⟩
  · have reached : 0 < s.firstVsyncTick := Nat.mul_pos (by positivity) positive
    obtain ⟨m, last⟩ : ∃ m, s.firstVsyncTick = m + 1 := Nat.exists_eq_succ_of_ne_zero reached.ne'
    have starts := State.afterTicks_vsyncStarts_of_succ origin idle inFrame' last.symm
    have row := starts.1
    have run := ticksTo_afterTicks composed (m + 1)
    rw [← last] at run
    refine ⟨_, run, ?vsc, ?vcd, ?hcc, ?vlc, ?vcc⟩
    all_goals rw [last, State.afterTicks_succ]
    case vsc => rw [State.withAnswer_crtc, State.tick_vsc_toNat, if_pos starts, s.afterTicks_params]
    case vcd => rw [State.withAnswer_ga, State.tick_vcd_of_vsyncStarts starts]
    case hcc => rw [State.withAnswer_crtc, State.tick_hcc, if_pos row.1]
    case vlc => rw [State.withAnswer_crtc, State.tick_vlc, if_pos row]
    case vcc =>
      rw [State.withAnswer_crtc, State.tick_vcc_of_vsyncStarts starts, s.afterTicks_reg, s.afterTicks_reg,
        s.reg_7, s.reg_4]
      have equal_iff : s.regs[7].toNat > s.regs[4].toNat ↔ s.regs[7].toNat = s.regs[4].toNat + 1 := by omega
      simp only [equal_iff]

end Sys2Proof.Machine
end

section
/-! A horizontal sync wider than a scanline (41_crtc.md R135 (c)): `HCC` comes round to R2 before `HSC` is counted down to
1, so every TICK finds the sync active and no GA_HSF is called. -/

namespace Sys2Proof.Machine

variable {s : State} {k n : Nat}

/-- `k` TICKs, fewer than a scanline has, have passed since a TICK that armed the horizontal sync, at `HCC = R2` or, where
R2 is R0 + 1, at `HCC = 0`. -/
structure State.SinceArming (s : State) (k : Nat) : Prop where
  withinLine : k ≤ (s.reg 0).toNat
  hcc_le : s.crtc.hcc.toNat ≤ (s.reg 0).toNat
  hcc : s.crtc.hcc.toNat = (s.reg 2).toNat + k ∨
    s.crtc.hcc.toNat + ((s.reg 0).toNat + 1) = (s.reg 2).toNat + k
  hsc : s.crtc.hsc.toNat = s.params.hsw.pred.val + 1 - k

/-- The sync is too wide for the scanline, and R2 is a count that every scanline reaches. -/
structure State.TooWideHsync (s : State) : Prop where
  positive : 1 ≤ (s.reg 2).toNat
  reached : (s.reg 2).toNat ≤ (s.reg 0).toNat + 1
  wide : (s.reg 0).toNat + 1 < s.params.hsw.pred.val + 1

theorem State.sinceArming_zero (reached : (s.reg 2).toNat ≤ (s.reg 0).toNat + 1)
    (hsc : s.crtc.hsc = s.params.hsw.toByte) (hcc : s.crtc.hcc.toNat = (s.reg 2).toNat % ((s.reg 0).toNat + 1)) :
    s.SinceArming 0 := by
  refine ⟨Nat.zero_le _, ?hcc_le, ?hcc, ?hsc⟩
  case hcc_le => rw [hcc]; exact Nat.le_of_lt_succ (Nat.mod_lt _ (Nat.succ_pos _))
  case hcc =>
    obtain inside | beyond := Nat.lt_or_eq_of_le reached
    · exact .inl (by rw [hcc, Nat.mod_eq_of_lt inside, Nat.add_zero])
    · exact .inr (by rw [hcc, beyond, Nat.mod_self, Nat.zero_add, Nat.add_zero])
  case hsc => rw [hsc, toByte_toNat, Nat.sub_zero]

/-- The count since arming is below the width by 2 at least. -/
theorem State.SinceArming.two_le_hsc (since : s.SinceArming k) (tooWide : s.TooWideHsync) :
    2 ≤ s.crtc.hsc.toNat := by
  obtain ⟨withinLine, -, -, hsc⟩ := since
  obtain ⟨-, -, wide⟩ := tooWide
  omega

/-- The sync is armed again exactly a scanline after it was armed (R125). -/
theorem State.SinceArming.arms_iff (since : s.SinceArming k) (tooWide : s.TooWideHsync) :
    s.crtc.hcc.toNat + 1 = (s.reg 2).toNat ↔ k = (s.reg 0).toNat := by
  obtain ⟨withinLine, hcc_le, hcc, -⟩ := since
  obtain ⟨positive, reached, -⟩ := tooWide
  omega

theorem State.SinceArming.withAnswer (since : s.SinceArming k) (a : Answer) : (s.withAnswer a).SinceArming k :=
  ⟨since.withinLine, since.hcc_le, since.hcc, since.hsc⟩

theorem State.SinceArming.tick (since : s.SinceArming k) (tooWide : s.TooWideHsync) :
    ∃ k', s.tick.SinceArming k' := by
  have hccNext := s.tick_hcc_toNat
  have hscNext := s.tick_hsc_toNat
  have arms_iff := since.arms_iff tooWide
  obtain ⟨withinLine, hcc_le, hcc, hsc⟩ := since
  obtain ⟨-, reached, -⟩ := tooWide
  by_cases again : k = (s.reg 0).toNat
  · rw [if_pos (arms_iff.mpr again)] at hscNext
    refine ⟨0, ?_⟩
    constructor <;> simp only [State.tick_reg, State.tick_params]
    all_goals split at hccNext <;> omega
  · rw [if_neg (mt arms_iff.mp again)] at hscNext
    refine ⟨k + 1, ?_⟩
    constructor <;> simp only [State.tick_reg, State.tick_params]
    all_goals split at hccNext <;> omega

theorem State.TooWideHsync.afterTicks (tooWide : s.TooWideHsync) (n : Nat) : (s.afterTicks n).TooWideHsync := by
  obtain ⟨positive, reached, wide⟩ := tooWide
  constructor <;> simpa only [State.afterTicks_reg, State.afterTicks_params]

theorem State.afterTicks_sinceArming (tooWide : s.TooWideHsync) (armed : s.SinceArming 0) (n : Nat) :
    ∃ k, (s.afterTicks n).SinceArming k := by
  induction n with
  | zero => exact ⟨0, armed⟩
  | succ n ih =>
    obtain ⟨k, since⟩ := ih
    obtain ⟨k', since'⟩ := since.tick (tooWide.afterTicks n)
    exact ⟨k', since'.withAnswer .nothing⟩

section
variable (tooWide : s.TooWideHsync) (armed : s.SinceArming 0)
include tooWide armed

theorem State.afterTicks_two_le_hsc (n : Nat) : 2 ≤ (s.afterTicks n).crtc.hsc.toNat := by
  obtain ⟨k, since⟩ := State.afterTicks_sinceArming tooWide armed n
  exact since.two_le_hsc (tooWide.afterTicks n)

theorem State.afterTicks_no_fall (n : Nat) : (s.afterTicks n).crtc.hsc ≠ 1#8 := by
  intro one
  have active := State.afterTicks_two_le_hsc tooWide armed n
  simp [one] at active

theorem State.afterTicks_div (n : Nat) : (s.afterTicks n).ga.div = s.ga.div := by
  induction n with
  | zero => rfl
  | succ n ih =>
    rw [State.afterTicks_succ, State.withAnswer_ga, State.tick_div,
      State.gaAfterHsync_of_no_fall (State.afterTicks_no_fall tooWide armed n), GateArray.advance_div, ih]

end

/-- Settles O49: no TICK of the run begins with `HSC == 1`, so none calls GA_HSF, and each clears `IRQ`. -/
theorem tooWideAnHsyncNeverFalls : Obligations.TooWideAnHsyncNeverFalls := by
  intro s n composed positive reached wide hsc hcc
  have tooWide : s.TooWideHsync := ⟨positive, reached, wide⟩
  have armed : s.SinceArming 0 := State.sinceArming_zero reached hsc hcc
  refine ⟨_, ticksTo_afterTicks composed n, ?active, State.afterTicks_div tooWide armed n, fun ticked => ?irq⟩
  case active =>
    intro zero
    have active := State.afterTicks_two_le_hsc tooWide armed n
    simp [zero] at active
  case irq =>
    obtain ⟨m, rfl⟩ := Nat.exists_eq_add_of_le' ticked
    rw [State.afterTicks_succ, State.withAnswer_ga,
      State.tick_irq_of_no_fall (State.afterTicks_no_fall tooWide armed m)]

end Sys2Proof.Machine
end

section
/-! RUNVS over many steps (42_host_procedures.md R160, R161). While no vertical sync starts, a step of the second loop
is one TICK that hands nothing to the host, so `n` steps of the loop are a run of `n` TICKs, whose phase and first
vertical-sync start are known; the step that starts a sync is the last. -/

namespace Sys2Proof.Machine

variable {s : State} {n : Nat} {rest : List HostItem}

/-! ### The machine run for a number of steps -/

/-- `Host.Core.run` takes its steps from the front; this is one more step at the end. -/
theorem run_succ_of_run (M : Host.Core) {a b : M.State} (ran : M.run n a = .next b) :
    M.run (n + 1) a = M.step b := by
  induction n generalizing a with
  | zero =>
    injection ran with same
    subst same
    rw [Host.Core.run]
    cases M.step a <;> rfl
  | succ n ih =>
    rw [Host.Core.run] at ran ⊢
    cases first : M.step a with
    | next c =>
      rw [first] at ran
      exact ih ran
    | fault r => rw [first] at ran; cases ran
    | refused r => rw [first] at ran; cases ran

theorem run_succ_congr (M : Host.Core) {a b : M.State} (same : M.step a = M.step b) (n : Nat) :
    M.run (n + 1) a = M.run (n + 1) b := by
  rw [Host.Core.run, Host.Core.run, same]

/-! ### One step of the second loop -/

theorem State.withBusy_self {b : Option Procedure} (busy : s.host.busy = b) : s.withBusy b = s := by
  subst busy; rfl

theorem State.tick_withBusy (s : State) (b : Option Procedure) : (s.withBusy b).tick = s.tick.withBusy b :=
  (s.tick_with_host { s.host with busy := b }).trans
    (State.withHost_of_host s.tick_host fun k => { k with busy := b })

theorem runvsAwait_of_idle (idle : s.crtc.vsc = 0#8) :
    runvsAwait s = s.tick.withBusy (if s.tick.vsyncOut then none else some .runvsAwait) := by
  rw [runvsAwait, State.vsyncOut_eq_false_iff.mpr idle]; rfl

/-- RUNVS at the test of its second loop, on the unit that takes its TICKs. -/
structure State.Awaits (s : State) : Prop where
  composed : s.target = .composed
  busy : s.host.busy = some .runvsAwait

theorem State.Awaits.step_eq_runvsAwait (awaits : s.Awaits) : step s = .next (runvsAwait s) := by
  rw [step, awaits.busy]
  simp only [resume, awaits.composed, proceed]

/-- A TICK that leaves no vertical sync leaves RUNVS where it stands. -/
theorem State.Awaits.step_of_idle (awaits : s.Awaits) (idle : s.crtc.vsc = 0#8) (still : s.tick.crtc.vsc = 0#8) :
    step s = .next s.tick := by
  have busy : s.tick.host.busy = some .runvsAwait := by rw [s.tick_host, awaits.busy]
  rw [awaits.step_eq_runvsAwait, runvsAwait_of_idle idle, State.vsyncOut_eq_false_iff.mpr still]
  exact congrArg _ (State.withBusy_self busy)

theorem State.tick_vsyncOut_of_vsyncStarts (starts : s.vsyncStarts) : s.tick.vsyncOut = true := by
  have armed : s.tick.crtc.vsc.toNat = s.params.vsw.pred.val + 1 := by rw [s.tick_vsc_toNat, if_pos starts]
  rw [← Bool.not_eq_false, State.vsyncOut_eq_false_iff]
  intro zero
  simp [zero] at armed

/-- A TICK that starts a vertical sync is the last. -/
theorem State.Awaits.step_of_vsyncStarts (awaits : s.Awaits) (idle : s.crtc.vsc = 0#8) (starts : s.vsyncStarts) :
    step s = .next (s.tick.withBusy none) := by
  rw [awaits.step_eq_runvsAwait, runvsAwait_of_idle idle, State.tick_vsyncOut_of_vsyncStarts starts]
  rfl

/-! ### A run of the second loop -/

/-- The composed block after `n` TICKs that hand nothing to the host. -/
def State.afterQuietTicks (s : State) (n : Nat) : State := { s.afterTicks n with host := s.host }

@[simp] theorem State.afterQuietTicks_crtc (s : State) (n : Nat) :
    (s.afterQuietTicks n).crtc = (s.afterTicks n).crtc := by rfl
@[simp] theorem State.afterQuietTicks_host (s : State) (n : Nat) : (s.afterQuietTicks n).host = s.host := by rfl
@[simp] theorem State.afterQuietTicks_target (s : State) (n : Nat) : (s.afterQuietTicks n).target = s.target :=
  s.afterTicks_target n
@[simp] theorem State.afterQuietTicks_regs (s : State) (n : Nat) : (s.afterQuietTicks n).regs = s.regs :=
  s.afterTicks_regs n
@[simp] theorem State.afterQuietTicks_params (s : State) (n : Nat) : (s.afterQuietTicks n).params = s.params :=
  s.afterTicks_params n

theorem State.afterQuietTicks_tick (s : State) (n : Nat) :
    (s.afterQuietTicks n).tick = s.afterQuietTicks (n + 1) := by
  have answerDropped (t : State) : ({ t with host := s.host } : State) =
      { t.withAnswer .nothing with host := s.host } := rfl
  rw [afterQuietTicks, tick_with_host, answerDropped]
  rfl

theorem State.Awaits.afterQuietTicks (awaits : s.Awaits) (n : Nat) : (s.afterQuietTicks n).Awaits :=
  ⟨by rw [s.afterQuietTicks_target, awaits.composed], awaits.busy⟩

/-- While no vertical sync starts, the second loop is a run of TICKs. -/
theorem State.Awaits.run_of_idle (awaits : s.Awaits) (idle : ∀ k ≤ n, (s.afterTicks k).crtc.vsc = 0#8) :
    Host.Core.run Sys2Proof.core n s = .next (s.afterQuietTicks n) := by
  induction n with
  | zero => rfl
  | succ n ih =>
    have ran := ih fun k within => idle k (Nat.le_succ_of_le within)
    have idleNow : (s.afterQuietTicks n).crtc.vsc = 0#8 := idle n (Nat.le_succ n)
    have still : (s.afterQuietTicks n).tick.crtc.vsc = 0#8 := by
      rw [s.afterQuietTicks_tick, s.afterQuietTicks_crtc, idle (n + 1) le_rfl]
    rw [run_succ_of_run _ ran, ← s.afterQuietTicks_tick]
    exact (awaits.afterQuietTicks n).step_of_idle idleNow still

/-! ### The loop that never ends -/

/-- No row count that TICK reaches comes to R7: it counts from 1 to R4 + 1 (R134). -/
theorem State.not_vsyncStarts_of_no_trigger (bounds : s.withinBounds)
    (noTrigger : (s.reg 7).toNat = 0 ∨ (s.reg 7).toNat > (s.reg 4).toNat + 1) : ¬ s.vsyncStarts := by
  rintro ⟨-, triggers, -⟩
  obtain ⟨-, -, vcc⟩ := bounds
  omega

theorem State.withinBounds.withAnswer (bounds : s.withinBounds) (a : Answer) : (s.withAnswer a).withinBounds := bounds

theorem State.afterTicks_of_no_trigger (bounds : s.withinBounds) (idle : s.crtc.vsc = 0#8)
    (noTrigger : (s.reg 7).toNat = 0 ∨ (s.reg 7).toNat > (s.reg 4).toNat + 1) (n : Nat) :
    (s.afterTicks n).withinBounds ∧ (s.afterTicks n).crtc.vsc = 0#8 := by
  induction n with
  | zero => exact ⟨bounds, idle⟩
  | succ n ih =>
    obtain ⟨boundsNow, idleNow⟩ := ih
    have noStart : ¬ (s.afterTicks n).vsyncStarts :=
      State.not_vsyncStarts_of_no_trigger boundsNow (by simpa only [State.afterTicks_reg] using noTrigger)
    rw [State.afterTicks_succ, State.withAnswer_crtc]
    exact ⟨(State.tick_withinBounds boundsNow).withAnswer .nothing, State.tick_vsc_of_idle idleNow noStart⟩

/-- Settles O48: the counters stay in bounds, so no TICK of the loop starts a vertical sync. -/
theorem runvsHangsWithoutATrigger : Obligations.RunvsHangsWithoutATrigger := by
  intro s n composed busy idle bounds noTrigger
  have awaits : s.Awaits := ⟨composed, busy⟩
  have idleAt (k : Nat) : (s.afterTicks k).crtc.vsc = 0#8 :=
    (State.afterTicks_of_no_trigger bounds idle noTrigger k).2
  exact ⟨_, awaits.run_of_idle fun k _ => idleAt k, busy, idleAt n, s.afterTicks_nops n⟩

/-! ### RUNVS issued at the origin -/

/-- RUNVS taken from the host's program and at the test of its second loop, before its first TICK. No step ends here. -/
def State.enterRunvs (s : State) (rest : List HostItem) : State :=
  ((s.withProgram rest).withAnswer .nothing).withBusy (some .runvsAwait)

theorem State.enterRunvs_awaits (composed : s.target = .composed) (rest : List HostItem) :
    (s.enterRunvs rest).Awaits := ⟨composed, rfl⟩

/-- The second loop's test and TICK do not read where the procedure stands. -/
theorem runvsAwait_withBusy (idle : s.crtc.vsc = 0#8) (b : Option Procedure) :
    runvsAwait (s.withBusy b) = runvsAwait s := by
  have idle' : (s.withBusy b).crtc.vsc = 0#8 := idle
  rw [runvsAwait_of_idle idle, runvsAwait_of_idle idle', s.tick_withBusy, State.withBusy_withBusy]
  rfl

/-- With no vertical sync active RUNVS's word does at once what a step of the second loop does. -/
theorem step_eq_step_enterRunvs (composed : s.target = .composed) (free : s.host.busy = none)
    (issued : s.host.program = .word 0x7000#16 :: rest) (idle : s.crtc.vsc = 0#8) :
    step s = step (s.enterRunvs rest) := by
  have idle' : ((s.withProgram rest).withAnswer .nothing).crtc.vsc = 0#8 := idle
  calc step s = exec .runvs (s.withProgram rest) :=
        stepRunsTheDecodedOperation s _ rest .runvs free issued (by decide)
    _ = .next (runvsLeave ((s.withProgram rest).withAnswer .nothing)) :=
        exec_of_takes (by rw [State.withProgram_target, composed]; rfl) nofun
    _ = .next (runvsAwait ((s.withProgram rest).withAnswer .nothing)) := by
        rw [runvsLeave, State.vsyncOut_eq_false_iff.mpr idle']; rfl
    _ = .next (runvsAwait (s.enterRunvs rest)) := by
        rw [State.enterRunvs, runvsAwait_withBusy idle']
    _ = step (s.enterRunvs rest) := (State.enterRunvs_awaits composed rest).step_eq_runvsAwait.symm

section
variable (awaits : s.Awaits) (origin : s.atOrigin) (idle : s.crtc.vsc = 0#8)
  (inFrame : (s.reg 7).toNat ≤ s.frameRows)
include awaits origin idle inFrame

/-- From the origin the second loop goes on up to the TICK before the first vertical-sync start. -/
theorem State.Awaits.run_of_lt_firstVsyncTick (before : n < s.firstVsyncTick) :
    Host.Core.run Sys2Proof.core n s = .next (s.afterQuietTicks n) :=
  awaits.run_of_idle fun k within =>
    State.afterTicks_vsc_of_lt_firstVsyncTick origin idle inFrame k (within.trans_lt before)

/-- From the origin the second loop ends with the first vertical-sync start. -/
theorem State.Awaits.run_firstVsyncTick (last : n + 1 = s.firstVsyncTick) :
    (s.afterQuietTicks n).vsyncStarts ∧
      Host.Core.run Sys2Proof.core (n + 1) s = .next ((s.afterQuietTicks n).tick.withBusy none) := by
  have before : n < s.firstVsyncTick := by omega
  have starts : (s.afterQuietTicks n).vsyncStarts :=
    State.afterTicks_vsyncStarts_of_succ origin idle inFrame last
  have idleNow : (s.afterQuietTicks n).crtc.vsc = 0#8 :=
    State.afterTicks_vsc_of_lt_firstVsyncTick origin idle inFrame n before
  refine ⟨starts, ?_⟩
  rw [run_succ_of_run _ (awaits.run_of_lt_firstVsyncTick origin idle inFrame before)]
  exact (awaits.afterQuietTicks n).step_of_vsyncStarts idleNow starts

end

/-- Settles O47: the run from the word is the run of the second loop from the origin, which ends with the TICK that ends
row R7 - 1. -/
theorem runvsFromTheOriginEnds : Obligations.RunvsFromTheOriginEnds := by
  intro s rest composed free issued origin idle positive inFrame
  have awaits : (s.enterRunvs rest).Awaits := State.enterRunvs_awaits composed rest
  have sameRun (n : Nat) : Host.Core.run Sys2Proof.core (n + 1) s =
      Host.Core.run Sys2Proof.core (n + 1) (s.enterRunvs rest) :=
    run_succ_congr _ (step_eq_step_enterRunvs composed free issued idle) n
  constructor
  · intro n ticked before
    obtain ⟨m, rfl⟩ := Nat.exists_eq_add_of_le' ticked
    exact ⟨_, (sameRun m).trans (awaits.run_of_lt_firstVsyncTick origin idle inFrame before), rfl⟩
  · have reached : 0 < (s.enterRunvs rest).firstVsyncTick := Nat.mul_pos (by positivity) positive
    obtain ⟨m, last⟩ : ∃ m, (s.enterRunvs rest).firstVsyncTick = m + 1 :=
      Nat.exists_eq_succ_of_ne_zero reached.ne'
    obtain ⟨starts, ran⟩ := awaits.run_firstVsyncTick origin idle inFrame last.symm
    have ends := (sameRun m).trans ran
    have nops := (s.enterRunvs rest).afterTicks_nops (m + 1)
    rw [← last] at ends nops
    refine ⟨_, ends, State.withBusy_busy _ none, ?program, ?answer, ?vsc, ?vcd, ?regs, ?nops⟩
    case program => rw [State.withBusy_program, State.tick_host]; rfl
    case answer => rw [State.withBusy_answer, State.tick_host]; rfl
    case vsc => rw [State.withBusy_crtc, State.tick_vsc_toNat, if_pos starts, State.afterQuietTicks_params]; rfl
    case vcd => rw [State.withBusy_ga, State.tick_vcd_of_vsyncStarts starts]
    case regs => rw [State.withBusy_regs, State.tick_regs, State.afterQuietTicks_regs]; rfl
    case nops => rw [State.withBusy_crtc, State.afterQuietTicks_tick, ← last]; exact nops

end Sys2Proof.Machine
end

section
/-! Totality (60_exceptions.md R195). An operation the unit does not take fails, a SETREG it takes fails or writes, and
the others have their effect: each is a next state. The words the decoder hands to SETREG carry a byte. -/

namespace Sys2Proof.Machine

variable {s : State}

theorem exec_setreg_of_takes {index : Int} {v : Byte} (takes : s.target.takes (.setreg index (v.toNat : Int)) = true) :
    exec (.setreg index (v.toNat : Int)) s = .next (setRegister index v s) := by
  simp only [exec, execSetreg, byteOf_toNat]
  exact onTarget_of_takes takes _

theorem exec_completes (s : State) (i : Instr)
    (isByte : ∀ index value, i = .setreg index value → 0 ≤ value ∧ value ≤ 255) : ∃ t, exec i s = .next t := by
  cases takes : s.target.takes i with
  | false => exact ⟨_, exec_of_not_takes takes isByte⟩
  | true =>
    by_cases isSetreg : ∃ index value, i = .setreg index value
    · obtain ⟨index, value, rfl⟩ := isSetreg
      obtain ⟨low, high⟩ := isByte index value rfl
      obtain ⟨v, rfl⟩ := exists_byte_of_range low high
      exact ⟨_, exec_setreg_of_takes takes⟩
    · exact ⟨_, exec_of_takes takes fun index value e => isSetreg ⟨index, value, e⟩⟩

theorem value_range_of_decode_setreg {w : CmdWord} {index value : Int}
    (decoded : decode w = .instr (.setreg index value)) : 0 ≤ value ∧ value ≤ 255 := by
  obtain ⟨-, isField⟩ := decode_setreg decoded
  have eightBits : (valField w).toNat < 2 ^ 8 := (valField w).isLt
  omega

theorem runWord_completes (w : CmdWord) (s : State) : ∃ t, runWord w s = .next t := by
  cases decoded : decode w with
  | reserved why => exact ⟨_, by rw [runWord, decoded]⟩
  | instr i =>
    rw [runWord_of_decode_instr decoded]
    exact exec_completes s i fun _ _ isSetreg => value_range_of_decode_setreg (isSetreg ▸ decoded)

theorem runProgram_completes (s : State) : ∃ t, runProgram s = .next t := by
  cases items : s.host.program with
  | nil => exact ⟨s, by rw [runProgram, items]⟩
  | cons x rest =>
    rw [runProgram_of_cons items]
    cases x with
    | waitInt => exact ⟨_, rfl⟩
    | word w => exact runWord_completes w _

theorem step_completes (s : State) : ∃ t, step s = .next t := by
  cases busy : s.host.busy with
  | some p => exact ⟨_, by rw [step, busy]⟩
  | none =>
    rw [step_of_not_busy busy]
    exact runProgram_completes s

/-- Settles O10: a step is a procedure's, an idle one, or one word's, and a word that the decoder does not reserve meets
the premise on operations. -/
theorem everyOperationAndEveryStepCompletes : Obligations.EveryOperationAndEveryStepCompletes :=
  ⟨exec_completes, step_completes⟩

end Sys2Proof.Machine
end

section
/-! The causes of the interrupt (60_exceptions.md R196). On the composed block a step is a TICK of the counters and the
Gate Array, leaves both, or is RESET; the Gate Array's events have no word there (30_encoding.md R86, decision D23). -/

namespace Sys2Proof.Machine

variable {s t : State} {i : Instr} {g : GateArray}

/-! ### The moves of the composed block -/

/-- What one step can do to the counters and the Gate Array of the composed block: `BlockMove`, which is of both units,
less the Gate Array's events and the register write. -/
inductive ComposedMove (s t : State) : Prop where
  | stay (crtc : t.crtc = s.crtc) (ga : t.ga = s.ga)
  | tick (crtc : t.crtc = s.tick.crtc) (ga : t.ga = s.tick.ga)
  | reset (crtc : t.crtc = Crtc.zeroed) (ga : t.ga = GateArray.fresh)

theorem ComposedMove.of_withProgram {rest : List HostItem} (move : ComposedMove (s.withProgram rest) t) :
    ComposedMove s t := by
  cases move with
  | stay crtc ga => exact .stay crtc ga
  | tick crtc ga =>
    rw [s.tick_withProgram, State.withProgram_crtc] at crtc
    rw [s.tick_withProgram, State.withProgram_ga] at ga
    exact .tick crtc ga
  | reset crtc ga => exact .reset crtc ga

theorem proceed_composedMove (p : Procedure) (s : State) : ComposedMove s (proceed p s) := by
  obtain ⟨b, a, ticks⟩ | ⟨b, a, waits⟩ := proceed_block p s
  · exact .tick (by simp only [ticks, State.withBusy_crtc, State.withAnswer_crtc])
      (by simp only [ticks, State.withBusy_ga, State.withAnswer_ga])
  · exact .stay (by rw [waits]; rfl) (by rw [waits]; rfl)

theorem resume_composedMove (p : Procedure) (composed : s.target = .composed) : ComposedMove s (resume p s) := by
  rw [resume, composed]
  exact proceed_composedMove p s

theorem exec_composedMove (composed : s.target = .composed) (h : exec i s = .next t) : ComposedMove s t := by
  cases effect_of_exec h with
  | tick => exact .tick (s.tick.withAnswer_crtc _) (s.tick.withAnswer_ga _)
  | runvs =>
    obtain ⟨b, ticks⟩ := runvsLeave_eq_tick (s.withAnswer .nothing)
    rw [ticks, s.tick_withAnswer]
    exact .tick (by simp only [State.withBusy_crtc, State.withAnswer_crtc])
      (by simp only [State.withBusy_ga, State.withAnswer_ga])
  | reset => exact .reset rfl rfl
  | gate g event alone => rw [composed] at alone; cases alone
  | _ => exact .stay rfl rfl

theorem step_composedMove (composed : s.target = .composed) (h : step s = .next t) : ComposedMove s t := by
  obtain ⟨p, -, rfl⟩ | ⟨-, -, rfl⟩ | ⟨rest, -, -, rfl⟩ | ⟨w, rest, -, -, -, rfl⟩ |
    ⟨w, rest, i, -, -, -, ran⟩ := step_cases h
  · exact resume_composedMove p composed
  · exact .stay rfl rfl
  · exact (resume_composedMove (s := s.withProgram rest) .waitTick composed).of_withProgram
  · exact .stay rfl rfl
  · exact (exec_composedMove (s := s.withProgram rest) composed ran).of_withProgram

/-! ### The interrupt in one fall and in one TICK -/

theorem GateArray.dividerPart_div_toNat_of_ne (short : g.div.toNat ≠ 51) :
    g.dividerPart.div.toNat = (g.div.toNat + 1) % 64 := by
  have notPeriod : g.div ≠ 51#6 := fun period => short (by rw [period]; rfl)
  simp [g.dividerPart_eq, notPeriod]

/-- The two causes on any divider, those that no run reaches included: at 63 the incremented one is 0 (decision D9). -/
theorem GateArray.fall_irq_dividerFirst (g : GateArray) : (g.advance.hsyncFall .dividerFirst).irq = true ↔
    g.div.toNat = 51 ∨ (g.vcd = .one ∧ (g.div.toNat + 1) % 64 < 32) := by
  by_cases correction : g.vcd = .one
  · rw [hsyncFall_dividerFirst_of_one (g := g.advance) correction]
    by_cases period : g.div.toNat = 51
    · simp [dividerPart_irq, period]
    · have counted := dividerPart_div_toNat_of_ne (g := g.advance) period
      simp [dividerPart_irq, BitVec.lt_def, divSplit, counted, period, correction]
  · rw [fall_irq .dividerFirst correction]
    simp [correction]

theorem State.tick_irq_iff (order : s.params.gaOrder = .dividerFirst) : s.tick.ga.irq = true ↔
    s.crtc.hsc = 1#8 ∧ (s.ga.div.toNat = 51 ∨ (s.ga.vcd = .one ∧ (s.ga.div.toNat + 1) % 64 < 32)) := by
  by_cases fall : s.crtc.hsc = 1#8
  · rw [s.tick_irq, gaAfterHsync_of_fall fall, order, GateArray.fall_irq_dividerFirst]
    simp [fall]
  · simp [tick_irq_of_no_fall fall, fall]

/-- Settles O33: a TICK is the one move that adds 1 to `NOPS`, and of the other two RESET clears `IRQ`. -/
theorem interruptHasOnlyItsTwoCauses : Obligations.InterruptHasOnlyItsTwoCauses := by
  intro s t composed order h
  cases step_composedMove composed h with
  | stay crtc ga =>
    rw [crtc, ga]
    exact ⟨fun counted => absurd counted.symm (Nat.succ_ne_self _), fun _ irq => irq⟩
  | tick crtc ga =>
    rw [crtc, ga]
    exact ⟨fun _ => State.tick_irq_iff order, fun noTick => absurd s.tick_nops noTick⟩
  | reset crtc ga =>
    rw [crtc, ga]
    exact ⟨fun counted => absurd counted.symm (Nat.succ_ne_zero _), fun _ irq => by cases irq⟩

end Sys2Proof.Machine
end

section
/-! The command word (30_encoding.md R81 to R85, R89) as a number: `op` counts 4096s, `idx` 256s and `val` units. The
three fields and the word determine each other, and with them the operation and its word. -/

namespace Sys2Proof

variable {w : CmdWord} {i j : Instr}

/-! ### The fields -/

theorem opField_toNat (w : CmdWord) : (opField w).toNat = w.toNat / 4096 := by
  have word : w.toNat < 65536 := w.isLt
  rw [opField, BitVec.extractLsb'_toNat, Nat.shiftRight_eq_div_pow]
  omega

theorem idxField_toNat (w : CmdWord) : (idxField w).toNat = w.toNat / 256 % 16 := by
  rw [idxField, BitVec.extractLsb'_toNat, Nat.shiftRight_eq_div_pow]

theorem valField_toNat (w : CmdWord) : (valField w).toNat = w.toNat % 256 := by
  rw [valField, BitVec.extractLsb'_toNat, Nat.shiftRight_zero]

theorem assembleFields_toNat (op idx : BitVec 4) (val : Byte) :
    (assembleFields op idx val).toNat = op.toNat * 4096 + idx.toNat * 256 + val.toNat := by
  have four : idx.toNat < 2 ^ 4 := idx.isLt
  have eight : val.toNat < 2 ^ 8 := val.isLt
  rw [assembleFields, BitVec.toNat_append, BitVec.toNat_append, ← Nat.shiftLeft_add_eq_or_of_lt four,
    ← Nat.shiftLeft_add_eq_or_of_lt eight, Nat.shiftLeft_eq, Nat.shiftLeft_eq]
  omega

/-- A word is put together from its own fields. -/
theorem assembleFields_of_fields (w : CmdWord) : assembleFields (opField w) (idxField w) (valField w) = w := by
  apply BitVec.eq_of_toNat_eq
  rw [assembleFields_toNat, opField_toNat, idxField_toNat, valField_toNat]
  omega

/-- Beside `opField_assembleFields`. -/
theorem idxField_assembleFields (op idx : BitVec 4) (val : Byte) : idxField (assembleFields op idx val) = idx := by
  have four : idx.toNat < 16 := idx.isLt
  have eight : val.toNat < 256 := val.isLt
  apply BitVec.eq_of_toNat_eq
  rw [idxField_toNat, assembleFields_toNat]
  omega

theorem valField_assembleFields (op idx : BitVec 4) (val : Byte) : valField (assembleFields op idx val) = val := by
  have eight : val.toNat < 256 := val.isLt
  apply BitVec.eq_of_toNat_eq
  rw [valField_toNat, assembleFields_toNat]
  omega

/-! ### The decoder and the encoder -/

theorem decode_of_op_one (op : opField w = 1#4) :
    decode w = .instr (.setreg (idxField w).toNat (valField w).toNat) := by
  rw [decode, op]; rfl

theorem decodeBare_eq_instr : decodeBare w i = .instr j ↔ (idxField w = 0#4 ∧ valField w = 0#8) ∧ i = j := by
  by_cases unused : idxField w = 0#4 ∧ valField w = 0#8
  · simp [decodeBare, unused]
  · simp [decodeBare, unused]

theorem encode_of_not_setreg (bare : ∀ index value, i ≠ .setreg index value) :
    encode i = assembleFields i.opcode 0#4 0#8 := by
  cases i with
  | setreg index value => exact absurd rfl (bare index value)
  | _ => rfl

/-- What the decoder reads: SETREG with its two fields from `op` 1, and from any other valid `op` the operation of that
code, whose unused fields are 0 (R85). -/
theorem decode_cases (decoded : decode w = .instr i) :
    (opField w = 1#4 ∧ i = .setreg (idxField w).toNat (valField w).toNat) ∨
    ((∀ index value, i ≠ .setreg index value) ∧
      opField w = i.opcode ∧ idxField w = 0#4 ∧ valField w = 0#8) := by
  unfold decode at decoded
  -- One case per row of the decoder: the second is SETREG's, the twelfth that of the reserved codes.
  split at decoded
  case h_2 op =>
    injection decoded with same
    exact .inl ⟨BitVec.eq_of_toNat_eq op, same.symm⟩
  case h_12 => cases decoded
  all_goals
    rename_i op
    obtain ⟨⟨idx, val⟩, rfl⟩ := decodeBare_eq_instr.mp decoded
    exact .inr ⟨nofun, BitVec.eq_of_toNat_eq op, idx, val⟩

/-- A value that fits a field of `n` bits is read back from it. -/
theorem toNat_ofInt_of_lt {n : Nat} {value : Int} (low : 0 ≤ value) (high : value < 2 ^ n) :
    ((BitVec.ofInt n value).toNat : Int) = value := by
  rw [BitVec.toNat_ofInt]
  push_cast
  rw [Int.emod_eq_of_lt low high, Int.toNat_of_nonneg low]

theorem setreg_wf_iff {index value : Int} : (Instr.setreg index value).wf = true ↔
    (0 ≤ index ∧ index ≤ 15) ∧ (0 ≤ value ∧ value ≤ 255) := by
  simp [Instr.wf, indexFits, valueFits]

/-- Settles O1: the fields of a SETREG word hold operands that fit them, and any other operation has one word. -/
theorem decodeOfEncodeIsTheOperation : Obligations.DecodeOfEncodeIsTheOperation := by
  intro i wf
  cases i with
  | setreg index value =>
    obtain ⟨⟨indexLow, indexHigh⟩, valueLow, valueHigh⟩ := setreg_wf_iff.mp wf
    rw [decode_of_op_one (Laws.OpcodeField.setreg index value), encode, idxField_assembleFields,
      valField_assembleFields, toNat_ofInt_of_lt indexLow (by omega), toNat_ofInt_of_lt valueLow (by omega)]
  | _ => decide

/-- Settles O2: the operation's fields are the word's, and the word is put together from them. -/
theorem encodeOfDecodeIsTheWord : Obligations.EncodeOfDecodeIsTheWord := by
  intro w i decoded
  obtain ⟨op, rfl⟩ | ⟨bare, op, idx, val⟩ := decode_cases decoded
  · constructor
    · have four : (idxField w).toNat < 16 := (idxField w).isLt
      have eight : (valField w).toNat < 256 := (valField w).isLt
      exact setreg_wf_iff.mpr (by omega)
    · have joined := assembleFields_of_fields w
      rw [op] at joined
      simpa only [encode, Instr.opcode, BitVec.ofInt_natCast, BitVec.ofNat_toNat, BitVec.setWidth_eq] using joined
  · constructor
    · cases i with
      | setreg index value => exact absurd rfl (bare index value)
      | _ => rfl
    · rw [encode_of_not_setreg bare, ← op, ← idx, ← val, assembleFields_of_fields]

theorem opField_eq_one_iff : opField w = 1#4 ↔ 0x1000 ≤ w.toNat ∧ w.toNat ≤ 0x1FFF := by
  rw [← BitVec.toNat_inj, opField_toNat]
  change w.toNat / 4096 = 1 ↔ _
  omega

/-- Settles O3: a SETREG word is any with `op` 1, and any other valid word is its operation's only one. -/
theorem validWordsAreTheListedOnes : Obligations.ValidWordsAreTheListedOnes := by
  intro w
  refine ⟨⟨?listed, ?valid⟩, ?outside⟩
  case listed =>
    rintro ⟨i, decoded⟩
    obtain ⟨op, -⟩ | ⟨bare, -⟩ := decode_cases decoded
    · exact .inr (opField_eq_one_iff.mp op)
    · obtain ⟨-, rfl⟩ := encodeOfDecodeIsTheWord w i decoded
      cases i with
      | setreg index value => exact absurd rfl (bare index value)
      | _ => exact .inl (by decide)
  case valid =>
    rintro (listed | range)
    · simp only [List.mem_cons, List.not_mem_nil, or_false] at listed
      obtain rfl | rfl | rfl | rfl | rfl | rfl | rfl | rfl | rfl | rfl := listed
      all_goals exact ⟨_, rfl⟩
    · exact ⟨_, decode_of_op_one (opField_eq_one_iff.mpr range)⟩
  case outside =>
    rintro ⟨low, high⟩
    refine ⟨_, _, decode_of_op_one (opField_eq_one_iff.mpr ⟨by omega, high⟩), ?_⟩
    rw [idxField_toNat]
    omega

/-- Settles O4: the decoder is run on each word. -/
theorem opcodeTableWordsDecode : Obligations.OpcodeTableWordsDecode := by
  unfold Obligations.OpcodeTableWordsDecode
  decide

/-- The word of R83 as FORCE's expansion writes it (R89). -/
theorem encode_setreg_of_byte (i : RegIndex) (v : Byte) :
    encode (.setreg (i.val : Int) (v.toNat : Int)) = BitVec.ofNat 16 (0x1000 + 256 * i.val + v.toNat) := by
  have index : i.val < 14 := i.isLt
  have value : v.toNat < 256 := v.isLt
  apply BitVec.eq_of_toNat_eq
  rw [encode, assembleFields_toNat, BitVec.ofInt_natCast, BitVec.ofInt_natCast, BitVec.toNat_ofNat,
    BitVec.toNat_ofNat, BitVec.toNat_ofNat]
  simp only [Instr.opcode, BitVec.toNat_ofNat]
  omega

/-- Settles O50: only FORCE's first word depends on operands. -/
theorem pseudoOperationsExpand : Obligations.PseudoOperationsExpand := by
  refine ⟨fun n => rfl, fun i v => ?force, rfl⟩
  rw [Machine.SourceLine.expand, encode_setreg_of_byte]
  rfl

end Sys2Proof
end

section
/-! InvalidCommand (30_encoding.md R84 to R86; 60_exceptions.md R193), the idle step (R205), and a step of a procedure
(42_host_procedures.md R160, R162). RUNVS with no vertical sync active makes the TICK of its second loop, whichever of
its loops it is at. -/

namespace Sys2Proof.Machine

variable {s t : State} {i : Instr} {w : CmdWord} {rest : List HostItem} {p : Procedure}

/-! ### InvalidCommand -/

theorem step_of_word (idle : s.host.busy = none) (items : s.host.program = .word w :: rest) :
    step s = runWord w (s.withProgram rest) := by
  rw [step_of_not_busy idle, runProgram_of_cons items, runItem]

theorem runWord_of_decode_reserved {why : Reserved} (reserved : decode w = .reserved why) (s : State) :
    runWord w s = .next (s.raise (.invalidCommand w)) := by
  rw [runWord, reserved]

theorem opcode_toNat_le (i : Instr) : i.opcode.toNat ≤ 0xA := by
  cases i <;> simp [Instr.opcode]

/-- The causes of R84 and R85: of the fields of a word that decodes, `op` is an operation's code, and the others are 0
unless it is SETREG's. -/
theorem exists_reserved_of_fields (cause : 0xB ≤ w.toNat / 4096 ∨ (w.toNat / 4096 ≠ 1 ∧ w.toNat % 4096 ≠ 0)) :
    ∃ why, decode w = .reserved why := by
  cases decoded : decode w with
  | reserved why => exact ⟨why, rfl⟩
  | instr i =>
    exfalso
    obtain ⟨op, -⟩ | ⟨-, op, idx, val⟩ := decode_cases decoded
    · have range := opField_eq_one_iff.mp op
      omega
    · have code := opcode_toNat_le i
      rw [← op, opField_toNat] at code
      rw [← BitVec.toNat_inj, idxField_toNat, BitVec.toNat_ofNat] at idx
      rw [← BitVec.toNat_inj, valField_toNat, BitVec.toNat_ofNat] at val
      omega

/-- On the composed block the word of a Gate Array event raises InvalidCommand as a reserved word does (R86). -/
theorem runWord_of_event (composed : s.target = .composed) (event : i = .gaAdv ∨ i = .gaHsf ∨ i = .gaVss)
    (decoded : decode w = .instr i) : runWord w s = .next (s.raise (.invalidCommand w)) := by
  obtain ⟨-, word⟩ := encodeOfDecodeIsTheWord w i decoded
  rw [runWord_of_decode_instr decoded, exec_event_of_composed composed event, word]

/-- Settles O5: a reserved word fails in the decoder, an event's word at the unit. -/
theorem reservedWordRaisesInvalidCommand : Obligations.ReservedWordRaisesInvalidCommand := by
  intro s w rest idle items cause
  rw [step_of_word idle items]
  rw [← or_assoc] at cause
  obtain fields | ⟨composed, word⟩ := cause
  · obtain ⟨why, reserved⟩ := exists_reserved_of_fields fields
    exact runWord_of_decode_reserved reserved _
  · have composed' : (s.withProgram rest).target = .composed := composed
    obtain rfl | rfl | rfl := word
    · exact runWord_of_event composed' (.inl rfl) (by decide)
    · exact runWord_of_event composed' (.inr (.inl rfl)) (by decide)
    · exact runWord_of_event composed' (.inr (.inr rfl)) (by decide)

/-- R86's list for the stand-alone unit, read from its other side. -/
theorem not_takes_of_gateArrayAlone (unit : s.target = .gateArrayAlone)
    (other : i ≠ .qint ∧ i ≠ .gaAdv ∧ i ≠ .gaHsf ∧ i ≠ .gaVss) : s.target.takes i = false := by
  obtain ⟨notQint, notAdv, notHsf, notVss⟩ := other
  rw [unit]
  cases i with
  | qint => exact absurd rfl notQint
  | gaAdv => exact absurd rfl notAdv
  | gaHsf => exact absurd rfl notHsf
  | gaVss => exact absurd rfl notVss
  | _ => rfl

/-- Settles O6: the unit is asked before the operation has any effect. -/
theorem wordsOfTheOtherUnitAreReserved : Obligations.WordsOfTheOtherUnitAreReserved := by
  intro s i wf wrongUnit
  obtain ⟨composed, event⟩ | ⟨unit, other⟩ := wrongUnit
  · exact exec_event_of_composed composed event
  · refine exec_of_not_takes (not_takes_of_gateArrayAlone unit other) fun index value isSetreg => ?_
    subst isSetreg
    exact (setreg_wf_iff.mp wf).2

/-- Settles O9: with no item left the host's program runs to the state itself. -/
theorem idleStepChangesNothing : Obligations.IdleStepChangesNothing := by
  intro s idle items
  rw [step_of_not_busy idle, runProgram, items]

/-! ### A step of a procedure -/

theorem step_of_busy (composed : s.target = .composed) (busy : s.host.busy = some p) :
    step s = .next (proceed p s) := by
  simp only [step, busy, resume, composed]

theorem runvsLeave_of_active (active : s.crtc.vsc ≠ 0#8) : runvsLeave s = s.tick.withBusy (some .runvsLeave) := by
  have out : s.vsyncOut = true := by simp [State.vsyncOut, active]
  rw [runvsLeave, if_pos out]

/-- The second loop is over exactly if its TICK leaves a vertical sync active. -/
theorem runvsAwait_of_idle_vsc (idle : s.crtc.vsc = 0#8) :
    runvsAwait s = s.tick.withBusy (if s.tick.crtc.vsc = 0#8 then some .runvsAwait else none) := by
  rw [runvsAwait_of_idle idle]
  by_cases still : s.tick.crtc.vsc = 0#8
  · rw [if_pos still, State.vsyncOut_eq_false_iff.mpr still]; rfl
  · have out : s.tick.vsyncOut = true := by simp [State.vsyncOut, still]
    rw [if_neg still, if_pos out]

theorem runvsLeave_of_idle_vsc (idle : s.crtc.vsc = 0#8) :
    runvsLeave s = s.tick.withBusy (if s.tick.crtc.vsc = 0#8 then some .runvsAwait else none) := by
  rw [runvsLeave, State.vsyncOut_eq_false_iff.mpr idle]
  exact runvsAwait_of_idle_vsc idle

theorem step_of_runvs_of_idle_vsc (composed : s.target = .composed)
    (busy : s.host.busy = some .runvsLeave ∨ s.host.busy = some .runvsAwait) (idle : s.crtc.vsc = 0#8) :
    step s = .next (s.tick.withBusy (if s.tick.crtc.vsc = 0#8 then some .runvsAwait else none)) := by
  obtain leave | await := busy
  · rw [step_of_busy composed leave, proceed, runvsLeave_of_idle_vsc idle]
  · rw [step_of_busy composed await, proceed, runvsAwait_of_idle_vsc idle]

theorem exec_qint (s : State) : exec .qint s = .next (s.withAnswer (.bit s.ga.irq)) :=
  exec_of_takes rfl nofun

/-- Settles O8: each loop's step is the TICK or QINT of the same state. -/
theorem stepContinuesTheProcedure : Obligations.StepContinuesTheProcedure := by
  intro s composed
  refine ⟨fun busy active => ?leave, step_of_runvs_of_idle_vsc composed, fun busy => ?waitTick,
    fun busy => ?waitQuery, fun rest idle items => ?waitInt⟩
  case leave => rw [step_of_busy composed busy, proceed, runvsLeave_of_active active]
  case waitTick => exact ⟨_, exec_tick_of_composed composed, step_of_busy composed busy⟩
  case waitQuery => exact ⟨_, exec_qint s, step_of_busy composed busy⟩
  case waitInt =>
    have composed' : (s.withProgram rest).target = .composed := composed
    refine ⟨_, exec_tick_of_composed composed', ?_⟩
    rw [step_of_not_busy idle, runProgram_of_cons items, runItem, resume, composed']
    rfl

/-- Settles O45: the answer that RUNVS hands over first is not read by its TICK. -/
theorem runvsBeginsWithATick : Obligations.RunvsBeginsWithATick := by
  intro s composed
  have runs : exec .runvs s = .next (runvsLeave (s.withAnswer .nothing)) :=
    exec_of_takes (by rw [composed]; rfl) nofun
  refine ⟨_, exec_tick_of_composed composed, ?_⟩
  rw [runs, ← s.tick_withAnswer]
  by_cases idle : s.crtc.vsc = 0#8
  · rw [runvsLeave_of_idle_vsc (s := s.withAnswer .nothing) idle, if_neg (not_not.mpr idle)]
  · rw [runvsLeave_of_active (s := s.withAnswer .nothing) idle, if_pos idle]

theorem State.vsyncStarts_of_tick_vsc_ne (idle : s.crtc.vsc = 0#8) (active : s.tick.crtc.vsc ≠ 0#8) :
    s.vsyncStarts := by
  by_contra noStart
  exact active (State.tick_vsc_of_idle idle noStart)

/-- A step that ends RUNVS is a TICK that found no vertical sync and left one. -/
theorem vsyncStarts_of_runvs_ends (composed : s.target = .composed)
    (running : s.host.busy = some .runvsLeave ∨ (s.host.busy = some .runvsAwait ∧ s.crtc.vsc = 0#8))
    (stepped : step s = .next t) (ended : t.host.busy = none) : s.vsyncStarts ∧ t = s.tick.withBusy none := by
  have idle : s.crtc.vsc = 0#8 := by
    obtain leave | ⟨-, idle⟩ := running
    · by_contra active
      rw [step_of_busy composed leave, proceed, runvsLeave_of_active active] at stepped
      injection stepped with same
      simp [← same] at ended
    · exact idle
  rw [step_of_runvs_of_idle_vsc composed (running.imp_right And.left) idle] at stepped
  injection stepped with same
  by_cases still : s.tick.crtc.vsc = 0#8
  · simp [← same, still] at ended
  · rw [if_neg still] at same
    exact ⟨State.vsyncStarts_of_tick_vsc_ne idle still, same.symm⟩

/-- Settles O46: what R160 says of the state is what TICK does to it at a vertical-sync start. -/
theorem runvsReturnsAtAVsyncStart : Obligations.RunvsReturnsAtAVsyncStart := by
  intro s t composed running stepped ended
  obtain ⟨starts, rfl⟩ := vsyncStarts_of_runvs_ends composed running stepped ended
  have row : s.rowEnds := starts.1
  rw [State.withBusy_crtc, State.withBusy_ga, ← s.reg_7, ← s.reg_4]
  refine ⟨?vsc, State.tick_vcd_of_vsyncStarts starts, ?hcc, ?vlc, s.tick_nops, State.tick_vcc_of_vsyncStarts starts⟩
  case vsc => rw [s.tick_vsc_toNat, if_pos starts]
  case hcc => rw [s.tick_hcc, if_pos row.1]
  case vlc => rw [s.tick_vlc, if_pos row]

end Sys2Proof.Machine
end

section
/-! What single operations answer: power-on and RESET (10_state.md R34, 41_crtc.md R144), SETREG (R140), the queries
(R141, R142, 40_gate_array.md R105), GA_HSF in both orders (R102, R103), and `VCC` in a TICK under both scopes of the
vertical-total test (R131). -/

namespace Sys2Proof.Machine

variable {s : State} {g : GateArray}

/-! ### Power-on, RESET, SETREG and the queries -/

/-- Settles O11: power-on writes what RESET writes, and nothing has been handed over. -/
theorem powerOnIsTheResetStateWithInitReg : Obligations.PowerOnIsTheResetStateWithInitReg :=
  fun _ _ => ⟨rfl, rfl, rfl, exec_reset_of_composed rfl⟩

/-- Settles O12: RESET's counters and its fresh Gate Array are the constants that the statement writes out. -/
theorem resetZeroesCountersAndGateArray : Obligations.ResetZeroesCountersAndGateArray :=
  fun _ composed => exec_reset_of_composed composed

/-- Settles O15: the bank is read back after the one write that SETREG makes. -/
theorem setregWritesTheSelectedRegister : Obligations.SetregWritesTheSelectedRegister := by
  intro s i v composed
  have read (j : RegIndex) : ((s.writeReg i v).withAnswer .nothing).reg j = if i = j then v else s.reg j := by
    rw [State.withAnswer_reg, State.writeReg_reg]
  exact ⟨_, exec_setreg composed i v, (read i).trans (if_pos rfl), fun j other => (read j).trans (if_neg other.symm),
    rfl, rfl, rfl, rfl, rfl, rfl⟩

/-- Settles O17: the value is looked at before the unit and the index are. -/
theorem setregValueOutsideAByteIsRefused : Obligations.SetregValueOutsideAByteIsRefused := by
  intro s index value outside
  rw [exec, execSetreg, byteOf_eq_none.mpr outside]

/-- Settles O19: each query hands over its output of R47, which is the comparison in the statement. -/
theorem syncQueriesReadTheActiveCounters : Obligations.SyncQueriesReadTheActiveCounters := by
  intro s composed
  exact ⟨exec_of_takes (by rw [composed]; rfl) nofun, exec_of_takes (by rw [composed]; rfl) nofun⟩

/-- Settles O21: both units take QINT. -/
theorem interruptQueryReadsIrq : Obligations.InterruptQueryReadsIrq := exec_qint

/-! ### GA_HSF -/

theorem exec_gaHsf_of_gateArrayAlone (unit : s.target = .gateArrayAlone) :
    exec .gaHsf s = .next ((s.withGa (s.ga.hsyncFall s.params.gaOrder)).withAnswer .nothing) :=
  exec_of_takes (by rw [unit]; rfl) nofun

theorem GateArray.dividerPart_of_period (period : g.div.toNat = 51) :
    g.dividerPart.div = 0#6 ∧ g.dividerPart.irq = true := by
  have isPeriod : g.div = 51#6 := BitVec.eq_of_toNat_eq period
  simp [g.dividerPart_eq, isPeriod]

theorem GateArray.dividerPart_irq_of_ne (short : g.div.toNat ≠ 51) : g.dividerPart.irq = g.irq := by
  rw [Bool.eq_iff_iff, dividerPart_irq]
  simp [short]

/-- `GateArray.fall_irq_dividerFirst` where an interrupt can be pending, which the correction leaves so. -/
theorem GateArray.hsyncFall_dividerFirst_irq_of_one (correction : g.vcd = .one) : (g.hsyncFall .dividerFirst).irq =
    (g.irq || decide (g.div.toNat = 51 ∨ (g.div.toNat + 1) % 64 < 32)) := by
  rw [hsyncFall_dividerFirst_of_one correction]
  by_cases period : g.div.toNat = 51
  · simp [dividerPart_of_period period, period]
  · simp [dividerPart_irq_of_ne period, BitVec.lt_def, divSplit, dividerPart_div_toNat_of_ne period, period]

/-- Where the correction fires in the other order, the interrupt is decided on the uncounted divider, and part 1 counts
the zeroed one (R102). -/
theorem GateArray.hsyncFall_countdownFirst_of_one (correction : g.vcd = .one) : g.hsyncFall .countdownFirst =
    { div := 1#6, irq := g.irq || decide (g.div < divSplit), vcd := .disarmed } := by
  rw [hsyncFall, countdownPart_of_one _ correction, dividerPart_eq]
  simp

/-- Settles O25: with the countdown not at 1 GA_HSF is its divider part; at 1 the correction decides on the counted
divider, which is 0 after 51 and 63. -/
theorem gaHsfFollowsTheCaseTable : Obligations.GaHsfFollowsTheCaseTable := by
  intro s unit order
  refine ⟨_, exec_gaHsf_of_gateArrayAlone unit, fun noCorrection => ?counts, fun correction => ?corrects⟩
  case counts =>
    rw [GateArray.hsyncFall_of_ne_one _ noCorrection]
    refine ⟨rfl, GateArray.dividerPart_of_period, fun last => ?_, fun short notLast => ?_⟩
    · have counted := GateArray.dividerPart_div_toNat_of_ne (g := s.ga) (by omega)
      exact ⟨BitVec.eq_of_toNat_eq (by simp [counted, last]), GateArray.dividerPart_irq_of_ne (by omega)⟩
    · have counted := GateArray.dividerPart_div_toNat_of_ne short
      have sixBits : s.ga.div.toNat < 64 := s.ga.div.isLt
      exact ⟨counted.trans (by omega), GateArray.dividerPart_irq_of_ne short⟩
  case corrects =>
    have sixBits : s.ga.div.toNat < 64 := s.ga.div.isLt
    have decided := GateArray.hsyncFall_dividerFirst_irq_of_one correction
    rw [order, State.withGa_ga, decided, GateArray.hsyncFall_dividerFirst_of_one correction]
    refine ⟨rfl, rfl, fun raises => ?_, fun keeps => ?_⟩
    · have cause : s.ga.div.toNat = 51 ∨ (s.ga.div.toNat + 1) % 64 < 32 := by omega
      rw [decide_eq_true cause, Bool.or_true]
    · have noCause : ¬ (s.ga.div.toNat = 51 ∨ (s.ga.div.toNat + 1) % 64 < 32) := by omega
      rw [decide_eq_false noCause, Bool.or_false]

/-- Settles O26: the two orders differ where the correction fires, and nowhere else. -/
theorem gaHsfInTheOtherOrder : Obligations.GaHsfInTheOtherOrder := by
  intro s unit order
  refine ⟨_, exec_gaHsf_of_gateArrayAlone unit, fun correction => ?corrects, fun noCorrection => ?counts⟩
  case corrects =>
    rw [order, GateArray.hsyncFall_countdownFirst_of_one correction]
    refine ⟨rfl, rfl, fun below => ?_, fun above => ?_⟩
    · have lower : s.ga.div < divSplit := below
      simp [lower]
    · have upper : divSplit ≤ s.ga.div := above
      simp [upper]
  case counts =>
    rw [State.withGa_ga, GateArray.hsyncFall_of_ne_one _ noCorrection, GateArray.hsyncFall_of_ne_one _ noCorrection]

/-! ### The vertical-total test -/

/-- Inside a row the scope `line` makes the test on the count as it is (R131). -/
theorem State.tick_vcc_of_line (noRow : ¬ s.rowEnds) (line : s.lineEnds) (isLine : s.params.vccWrapScope = .line) :
    s.tick.crtc.vcc.toNat = if s.crtc.vcc.toNat > (s.reg 4).toNat then 0 else s.crtc.vcc.toNat := by
  rw [s.tick_vcc, if_neg noRow]
  by_cases above : s.crtc.vcc.toNat > (s.reg 4).toNat
  · rw [if_pos ⟨line, isLine, above⟩, if_pos above]; rfl
  · rw [if_neg fun test => above test.2.2, if_neg above]

/-- With no scanline end there is no test. -/
theorem State.tick_vcc_of_not_lineEnds (noLine : ¬ s.lineEnds) : s.tick.crtc.vcc = s.crtc.vcc := by
  rw [s.tick_vcc, if_neg fun row => noLine row.1, if_neg fun test => noLine test.1]

/-- Settles O30: at a row end the test does not depend on the scope, and inside a row only `line` makes it. -/
theorem verticalTotalTestInBothScopes : Obligations.VerticalTotalTestInBothScopes := by
  intro s composed
  refine ⟨_, exec_tick_of_composed composed, ?parts⟩
  simp only [State.withAnswer_crtc]
  refine ⟨fun line row => State.tick_vcc_of_rowEnds ⟨line, row⟩, fun line inside => ?inRow,
    fun inside => State.tick_vcc_of_not_lineEnds (Nat.not_lt.mpr inside)⟩
  case inRow =>
    have noRow : ¬ s.rowEnds := fun row => Nat.not_lt.mpr inside row.2
    refine ⟨?vlc, fun isRow => State.tick_vcc_of_not_rowEnds noRow (.inl isRow),
      fun isLine => State.tick_vcc_of_line noRow line isLine⟩
    exact s.tick_vlc_toNat.trans ((if_neg noRow).trans (if_pos line))

end Sys2Proof.Machine
end

section
/-! What holds of every operation and every step: `FAULT` marks the failures (60_exceptions.md R194), the parameters and
the unit stay (10_state.md R50), and who writes the counters and the Gate Array (10_state.md section 2, 30_encoding.md
R86). -/

namespace Sys2Proof.Machine

variable {s t u : State} {i : Instr}

/-! ### FAULT -/

/-- `FAULT` is as it was, or the host has just been handed a failure that set it. -/
def FaultMarks (s t : State) : Prop := t.fault = s.fault ∨ (t.fault = true ∧ ∃ f, t.host.answer = .failed f)

theorem faultMarks_raise (s : State) (f : Failure) : FaultMarks s (s.raise f) := .inr ⟨rfl, f, rfl⟩

theorem resume_faultMarks (p : Procedure) (s : State) : FaultMarks s (resume p s) := by
  cases unit : s.target with
  | composed => rw [resume, unit]; exact .inl (proceed_handsNoFailure p s).fault
  | gateArrayAlone => rw [resume, unit]; exact .inr ⟨rfl, _, rfl⟩

theorem exec_faultMarks (h : exec i s = .next t) : FaultMarks s t := by
  cases effect_of_exec h with
  | failed f => exact faultMarks_raise s f
  | tick => exact .inl (handsNoFailure_tick s).withNothing.fault
  | runvs => exact .inl (runvsLeave_handsNoFailure (s.withAnswer .nothing)).fault
  | _ => exact .inl rfl

theorem step_faultMarks (h : step s = .next t) : FaultMarks s t := by
  obtain ⟨p, -, rfl⟩ | ⟨-, -, rfl⟩ | ⟨rest, -, -, rfl⟩ | ⟨w, rest, -, -, -, rfl⟩ |
    ⟨w, rest, i, -, -, -, ran⟩ := step_cases h
  · exact resume_faultMarks p s
  · exact .inl rfl
  · exact resume_faultMarks .waitTick (s.withProgram rest)
  · exact faultMarks_raise (s.withProgram rest) _
  · exact exec_faultMarks (s := s.withProgram rest) ran

/-- Settles O36: no step writes `FAULT` but one that fails, which sets it. -/
theorem faultIsStickyAndMarksFailures : Obligations.FaultIsStickyAndMarksFailures := by
  intro s t h
  obtain same | ⟨set, failed⟩ := step_faultMarks h
  · rw [same]
    exact ⟨id, .inl⟩
  · exact ⟨fun _ => set, fun _ => .inr failed⟩

/-! ### The parameters and the unit -/

theorem BlockMove.params (move : BlockMove s u) : u.params = s.params := by
  cases move with
  | tick => exact s.tick_params
  | _ => rfl

theorem step_params (h : step s = .next t) : t.params = s.params := by
  obtain ⟨s', u, before, move, after⟩ := step_blockMove h
  rw [after.params, move.params, before.params]

theorem proceed_target (p : Procedure) (s : State) : (proceed p s).target = s.target := by
  obtain ⟨b, a, ticks⟩ | ⟨b, a, waits⟩ := proceed_block p s
  · rw [ticks, State.withBusy_target, State.withAnswer_target, s.tick_target]
  · rw [waits, State.withBusy_target, State.withAnswer_target]

theorem resume_target (p : Procedure) (s : State) : (resume p s).target = s.target := by
  cases unit : s.target with
  | composed => rw [resume, unit]; exact (proceed_target p s).trans unit
  | gateArrayAlone => rw [resume, unit]; exact unit

theorem exec_target (h : exec i s = .next t) : t.target = s.target := by
  cases effect_of_exec h with
  | tick => exact (State.withAnswer_target s.tick .nothing).trans s.tick_target
  | runvs => exact proceed_target .runvsLeave (s.withAnswer .nothing)
  | _ => rfl

theorem step_target (h : step s = .next t) : t.target = s.target := by
  obtain ⟨p, -, rfl⟩ | ⟨-, -, rfl⟩ | ⟨rest, -, -, rfl⟩ | ⟨w, rest, -, -, -, rfl⟩ |
    ⟨w, rest, i, -, -, -, ran⟩ := step_cases h
  · exact resume_target p s
  · rfl
  · exact resume_target .waitTick (s.withProgram rest)
  · rfl
  · exact exec_target (s := s.withProgram rest) ran

/-- Settles O37: no move of the block writes the parameters, and nothing in a step writes the unit. -/
theorem parametersAndUnitAreConstant : Obligations.ParametersAndUnitAreConstant :=
  fun _ _ h => ⟨step_params h, step_target h⟩

/-! ### The counters and the Gate Array -/

/-- Beside `exec_crtc_of_not_ticking`: the Gate Array's events are not taken on the composed block. -/
theorem exec_ga_of_not_ticking (composed : s.target = .composed) (h : exec i s = .next t) (notTick : i ≠ .tick)
    (notRunvs : i ≠ .runvs) (notReset : i ≠ .reset) : t.ga = s.ga := by
  cases effect_of_exec h with
  | tick isTick => exact absurd isTick notTick
  | runvs isRunvs => exact absurd isRunvs notRunvs
  | reset isReset => exact absurd isReset notReset
  | gate g event alone => rw [composed] at alone; cases alone
  | _ => rfl

/-- Settles O38: of the shapes that the state after an operation can have, those with other counters are excluded. -/
theorem onlyTicksAndResetMoveTheCounters : Obligations.OnlyTicksAndResetMoveTheCounters :=
  fun _ _ _ h notTick notRunvs notReset => ⟨exec_crtc_of_not_ticking h notTick notRunvs notReset,
    fun composed => exec_ga_of_not_ticking composed h notTick notRunvs notReset⟩

/-- Of the effects an operation can have, those that write the bank or a counter are the composed block's. -/
theorem exec_of_gateArrayAlone_keeps (unit : s.target = .gateArrayAlone) (h : exec i s = .next t) :
    t.regs = s.regs ∧ t.crtc = s.crtc := by
  have notComposed : s.target ≠ .composed := by simp [unit]
  cases effect_of_exec h with
  | tick _ composed => exact absurd composed notComposed
  | setreg _ _ _ _ _ composed => exact absurd composed notComposed
  | reset _ composed => exact absurd composed notComposed
  | runvs _ composed => exact absurd composed notComposed
  | _ => exact ⟨rfl, rfl⟩

theorem resume_of_gateArrayAlone_keeps (unit : s.target = .gateArrayAlone) (p : Procedure) :
    (resume p s).regs = s.regs ∧ (resume p s).crtc = s.crtc := by
  rw [resume, unit]
  exact ⟨rfl, rfl⟩

/-- Settles O39: a procedure's step fails on this unit, and no operation it takes writes the bank or a counter. -/
theorem standAloneUnitHasOnlyGateArrayState : Obligations.StandAloneUnitHasOnlyGateArrayState := by
  intro s t unit h
  obtain ⟨p, -, rfl⟩ | ⟨-, -, rfl⟩ | ⟨rest, -, -, rfl⟩ | ⟨w, rest, -, -, -, rfl⟩ |
    ⟨w, rest, i, -, -, -, ran⟩ := step_cases h
  · exact resume_of_gateArrayAlone_keeps unit p
  · exact ⟨rfl, rfl⟩
  · exact resume_of_gateArrayAlone_keeps (s := s.withProgram rest) unit .waitTick
  · exact ⟨rfl, rfl⟩
  · exact exec_of_gateArrayAlone_keeps (s := s.withProgram rest) unit ran

end Sys2Proof.Machine
end
